-- ==== Sys2Proof/Word.lean ====
section
/-! DEFINITION. The word types of the block: a byte, the 32-bit registers and operands (00_scope R5), the 64-bit values, the command and response words (30_encoding R80, R84). -/

namespace Sys2Proof

/-- One storage or array element, 8 bits (R5). -/
abbrev Byte := BitVec 8

/-- A counter, capacity, mask, count, offset or length: 32 bits, unsigned (R5). -/
abbrev Word := BitVec 32

/-- A long value, or the VALUE field of a response: 64 bits (R5, R84). -/
abbrev Long := BitVec 64

/-- The command word CMD[127:0] (R80). -/
abbrev CommandWord := BitVec 128

/-- The response word RSP[71:0] (R84). -/
abbrev ResponseWord := BitVec 72

end Sys2Proof
end

