-- ==== Sys2Proof/Config.lean ====
section
/-! DEFINITION. What an implementation fixes, and the free values: constants with no body, of which nothing can be proved, so that a claim holds whatever they are. -/

namespace Sys2Proof.Config

/-- The parameter SILENT_NOOP of 00_scope R5 and 60_exceptions R203: whether a silent no-op is reported as ST_OK.
The spec leaves it open (92 D6). DESIGN CHOICE, log 6: an uninterpreted constant. -/
opaque silentNoop : Bool

/-- The byte at a storage position that no command has written since construction (10_state R37, 93 U4), for the
`n`-th storage array and the position `p`. DESIGN CHOICE, log 5: a free value, one per array and position. -/
opaque storageByte (n p : Nat) : Byte

/-- The byte at an index of an operand array that its owner has not given (log 3), for the `n`-th array and the
index `i`. DESIGN CHOICE, log 3: a free value, one per array and index. -/
opaque operandByte (n i : Nat) : Byte

end Sys2Proof.Config
end

