-- ==== Sys2Proof/Syntax.lean ====
section
/-! DEFINITION. The 26 commands of 30_encoding R86, one constructor per row of opcode_table.json, with the operands of R82 and R83 as fields. -/

namespace Sys2Proof

/-- A command with its operands. Formats D and K carry the operand array's valid bit AV and length L (R81);
the array's bytes are not part of the command (R80). -/
inductive Instr where
  /-- 0x01, construction with a capacity (R190). -/
  | initSize (size : Word)
  /-- 0x02, construction with a backing array (R191). -/
  | initArray (av : Bool) (len : Word)
  /-- 0x10 (R110). -/
  | capacity
  /-- 0x11 (R111). -/
  | dataLength
  /-- 0x12 (R112). -/
  | remainingLength
  /-- 0x13 (R113). -/
  | readIndex
  /-- 0x14 (R114). -/
  | writeIndex
  /-- 0x20, bulk enqueue from the operand array (R120). -/
  | write (av : Bool) (len offset count : Word)
  /-- 0x21, bulk dequeue into the operand array (R123). -/
  | readBytes (av : Bool) (len offset count : Word)
  /-- 0x22, bulk dequeue into an array the block creates (R126). -/
  | readBytesNew (count : Word)
  /-- 0x30 (R140). -/
  | writeByte (value : Byte)
  /-- 0x31 (R141). -/
  | readByte
  /-- 0x40, 4 bytes, big-endian (R151). -/
  | writeInt (value : Word)
  /-- 0x41 (R152). -/
  | readInt
  /-- 0x42, 4 bytes, little-endian (R153). -/
  | writeIntLe (value : Word)
  /-- 0x43 (R154). -/
  | readIntLe
  /-- 0x44, 8 bytes, big-endian (R155). -/
  | writeLong (value : Long)
  /-- 0x45 (R156). -/
  | readLong
  /-- 0x46, 8 bytes, little-endian (R157). -/
  | writeLongLe (value : Long)
  /-- 0x47 (R158). -/
  | readLongLe
  /-- 0x50 (R170). -/
  | markWriteIndex
  /-- 0x51 (R171). -/
  | resetWriteIndex
  /-- 0x52 (R172). -/
  | markReadIndex
  /-- 0x53 (R173). -/
  | resetReadIndex
  /-- 0x60 (R180). -/
  | skipWriteBytes (count : Word)
  /-- 0x61 (R181). -/
  | skipReadBytes (count : Word)
  deriving DecidableEq, Repr

end Sys2Proof
end

