-- ==== Sys2Proof/WellFormed.lean ====
section
/-! DEFINITION. Which commands some word encodes: a null operand array has no length (30_encoding R88). Every other operand has a width of its own and is well formed at every value. -/

namespace Sys2Proof

/-- AV = 0 requires L = 0 (R53, R88). -/
def arrayWellFormed (av : Bool) (len : Word) : Bool := av || len == 0

/-- The one operand condition of R88 that the fields of `Instr` do not enforce by their types. -/
def wellFormed : Instr → Bool
  | .initArray av len => arrayWellFormed av len
  | .write av len _ _ => arrayWellFormed av len
  | .readBytes av len _ _ => arrayWellFormed av len
  | .initSize _ | .capacity | .dataLength | .remainingLength | .readIndex | .writeIndex
  | .readBytesNew _ | .writeByte _ | .readByte
  | .writeInt _ | .readInt | .writeIntLe _ | .readIntLe
  | .writeLong _ | .readLong | .writeLongLe _ | .readLongLe
  | .markWriteIndex | .resetWriteIndex | .markReadIndex | .resetReadIndex
  | .skipWriteBytes _ | .skipReadBytes _ => true

end Sys2Proof
end

