-- ==== Sys2Proof/Decode.lean ====
section
/-! DEFINITION. The command word and its fields, the opcode map, decoding (total, refusing by name) and the encoder, from 30_encoding R80 to R91 and R95. -/

namespace Sys2Proof

/-! ### The fields of the command word (R81) -/

/-- `OP`, CMD[7:0]. -/
def fieldOp (w : CommandWord) : BitVec 8 := w.extractLsb' 0 8

/-- `AV`, CMD[8]. -/
def fieldAv (w : CommandWord) : Bool := w.getLsbD 8

/-- `RSV`, CMD[31:9]. -/
def fieldRsv (w : CommandWord) : BitVec 23 := w.extractLsb' 9 23

/-- `A`, CMD[63:32]. -/
def fieldA (w : CommandWord) : Word := w.extractLsb' 32 32

/-- `B`, CMD[95:64]. -/
def fieldB (w : CommandWord) : Word := w.extractLsb' 64 32

/-- `L`, CMD[127:96]. -/
def fieldL (w : CommandWord) : Word := w.extractLsb' 96 32

/-- The word with these fields and `RSV` zero, in the listing order `L_B_A_C` (R81). -/
def commandWord (op : BitVec 8) (av : Bool) (a b l : Word) : CommandWord :=
  l ++ b ++ a ++ (0#23 ++ BitVec.ofBool av ++ op)

/-! ### The opcode map (R86) -/

/-- The operation a word names, without its operands: one name per row of R86. -/
inductive Op where
  | initSize | initArray
  | capacity | dataLength | remainingLength | readIndex | writeIndex
  | write | readBytes | readBytesNew
  | writeByte | readByte
  | writeInt | readInt | writeIntLe | readIntLe | writeLong | readLong | writeLongLe | readLongLe
  | markWriteIndex | resetWriteIndex | markReadIndex | resetReadIndex
  | skipWriteBytes | skipReadBytes
  deriving DecidableEq, Repr

/-- The seven formats of R82. -/
inductive Format where
  | n | c | v8 | v32 | v64 | d | k
  deriving DecidableEq, Repr

/-- The rows of R86, in its order. -/
def allOps : List Op :=
  [.initSize, .initArray, .capacity, .dataLength, .remainingLength, .readIndex, .writeIndex,
   .write, .readBytes, .readBytesNew, .writeByte, .readByte,
   .writeInt, .readInt, .writeIntLe, .readIntLe, .writeLong, .readLong, .writeLongLe, .readLongLe,
   .markWriteIndex, .resetWriteIndex, .markReadIndex, .resetReadIndex,
   .skipWriteBytes, .skipReadBytes]

/-- The `OP` column of R86. -/
def opCode : Op → BitVec 8
  | .initSize => 0x01#8
  | .initArray => 0x02#8
  | .capacity => 0x10#8
  | .dataLength => 0x11#8
  | .remainingLength => 0x12#8
  | .readIndex => 0x13#8
  | .writeIndex => 0x14#8
  | .write => 0x20#8
  | .readBytes => 0x21#8
  | .readBytesNew => 0x22#8
  | .writeByte => 0x30#8
  | .readByte => 0x31#8
  | .writeInt => 0x40#8
  | .readInt => 0x41#8
  | .writeIntLe => 0x42#8
  | .readIntLe => 0x43#8
  | .writeLong => 0x44#8
  | .readLong => 0x45#8
  | .writeLongLe => 0x46#8
  | .readLongLe => 0x47#8
  | .markWriteIndex => 0x50#8
  | .resetWriteIndex => 0x51#8
  | .markReadIndex => 0x52#8
  | .resetReadIndex => 0x53#8
  | .skipWriteBytes => 0x60#8
  | .skipReadBytes => 0x61#8

/-- The format column of R86. -/
def opFormat : Op → Format
  | .initSize => .c
  | .initArray => .k
  | .capacity | .dataLength | .remainingLength | .readIndex | .writeIndex => .n
  | .write | .readBytes => .d
  | .readBytesNew => .c
  | .writeByte => .v8
  | .readByte => .n
  | .writeInt | .writeIntLe => .v32
  | .writeLong | .writeLongLe => .v64
  | .readInt | .readIntLe | .readLong | .readLongLe => .n
  | .markWriteIndex | .resetWriteIndex | .markReadIndex | .resetReadIndex => .n
  | .skipWriteBytes | .skipReadBytes => .c

/-- The mnemonic column of R86. -/
def opMnemonic : Op → String
  | .initSize => "init_size"
  | .initArray => "init_array"
  | .capacity => "capacity"
  | .dataLength => "data_length"
  | .remainingLength => "remaining_length"
  | .readIndex => "read_index"
  | .writeIndex => "write_index"
  | .write => "write"
  | .readBytes => "read_bytes"
  | .readBytesNew => "read_bytes_new"
  | .writeByte => "write_byte"
  | .readByte => "read_byte"
  | .writeInt => "write_int"
  | .readInt => "read_int"
  | .writeIntLe => "write_int_le"
  | .readIntLe => "read_int_le"
  | .writeLong => "write_long"
  | .readLong => "read_long"
  | .writeLongLe => "write_long_le"
  | .readLongLe => "read_long_le"
  | .markWriteIndex => "mark_write_index"
  | .resetWriteIndex => "reset_write_index"
  | .markReadIndex => "mark_read_index"
  | .resetReadIndex => "reset_read_index"
  | .skipWriteBytes => "skip_write_bytes"
  | .skipReadBytes => "skip_read_bytes"

/-- The row whose `OP` is `code`, if R86 has one. -/
def opOfCode (code : BitVec 8) : Option Op := allOps.find? fun o => opCode o == code

/-! ### Decoding (R88 to R91) -/

/-- Why a word is illegal (R89). The response does not report it: every one is ST_ILLEGAL. -/
inductive DecodeError where
  /-- `RSV` is not zero. -/
  | reservedNonzero
  /-- `OP` is none of the 26 values of R86. -/
  | unassignedOpcode
  /-- `AV` is set in a format without an operand array. -/
  | avNonzero
  /-- `A`, or `A[31:8]` in format V8, is not zero in a format that does not use it. -/
  | aNonzero
  /-- `B` is not zero in a format that does not use it. -/
  | bNonzero
  /-- `L` is not zero in a format without an operand array. -/
  | lNonzero
  /-- `AV` is 0 and `L` is not, in format D or K. -/
  | nullWithLength
  deriving DecidableEq, Repr

/-- The first must-be-zero condition of R88 that fails, of the listed pairs of a failure and its name. -/
def firstError : List (Bool × DecodeError) → Option DecodeError
  | [] => none
  | (bad, e) :: rest => if bad then some e else firstError rest

/-- What R88 asks of a word of each format, in the order of the fields. -/
def formatChecks (f : Format) (w : CommandWord) : List (Bool × DecodeError) :=
  let av := (fieldAv w, DecodeError.avNonzero)
  let a := (fieldA w != 0, DecodeError.aNonzero)
  let aHigh := ((fieldA w).extractLsb' 8 24 != 0, DecodeError.aNonzero)
  let b := (fieldB w != 0, DecodeError.bNonzero)
  let l := (fieldL w != 0, DecodeError.lNonzero)
  let null := (!arrayWellFormed (fieldAv w) (fieldL w), DecodeError.nullWithLength)
  match f with
  | .n => [av, a, b, l]
  | .c => [av, b, l]
  | .v8 => [av, aHigh, b, l]
  | .v32 => [av, b, l]
  | .v64 => [av, l]
  | .d => [null]
  | .k => [a, b, null]

/-- The operation with the operands of R83, taken from the word's fields. -/
def assemble (o : Op) (w : CommandWord) : Instr :=
  match o with
  | .initSize => .initSize (fieldA w)
  | .initArray => .initArray (fieldAv w) (fieldL w)
  | .capacity => .capacity
  | .dataLength => .dataLength
  | .remainingLength => .remainingLength
  | .readIndex => .readIndex
  | .writeIndex => .writeIndex
  | .write => .write (fieldAv w) (fieldL w) (fieldB w) (fieldA w)
  | .readBytes => .readBytes (fieldAv w) (fieldL w) (fieldB w) (fieldA w)
  | .readBytesNew => .readBytesNew (fieldA w)
  | .writeByte => .writeByte ((fieldA w).extractLsb' 0 8)
  | .readByte => .readByte
  | .writeInt => .writeInt (fieldA w)
  | .readInt => .readInt
  | .writeIntLe => .writeIntLe (fieldA w)
  | .readIntLe => .readIntLe
  | .writeLong => .writeLong (fieldB w ++ fieldA w)
  | .readLong => .readLong
  | .writeLongLe => .writeLongLe (fieldB w ++ fieldA w)
  | .readLongLe => .readLongLe
  | .markWriteIndex => .markWriteIndex
  | .resetWriteIndex => .resetWriteIndex
  | .markReadIndex => .markReadIndex
  | .resetReadIndex => .resetReadIndex
  | .skipWriteBytes => .skipWriteBytes (fieldA w)
  | .skipReadBytes => .skipReadBytes (fieldA w)

/-- Decoding, total on all 2^128 words, in the three steps of R91. -/
def decode (w : CommandWord) : Except DecodeError Instr :=
  if fieldRsv w != 0 then .error .reservedNonzero
  else
    match opOfCode (fieldOp w) with
    | none => .error .unassignedOpcode
    | some o =>
      match firstError (formatChecks (opFormat o) w) with
      | some e => .error e
      | none => .ok (assemble o w)

/-! ### Encoding (R82, R86) -/

/-- Which row of R86 a command is. -/
def instrOp : Instr → Op
  | .initSize _ => .initSize
  | .initArray _ _ => .initArray
  | .capacity => .capacity
  | .dataLength => .dataLength
  | .remainingLength => .remainingLength
  | .readIndex => .readIndex
  | .writeIndex => .writeIndex
  | .write _ _ _ _ => .write
  | .readBytes _ _ _ _ => .readBytes
  | .readBytesNew _ => .readBytesNew
  | .writeByte _ => .writeByte
  | .readByte => .readByte
  | .writeInt _ => .writeInt
  | .readInt => .readInt
  | .writeIntLe _ => .writeIntLe
  | .readIntLe => .readIntLe
  | .writeLong _ => .writeLong
  | .readLong => .readLong
  | .writeLongLe _ => .writeLongLe
  | .readLongLe => .readLongLe
  | .markWriteIndex => .markWriteIndex
  | .resetWriteIndex => .resetWriteIndex
  | .markReadIndex => .markReadIndex
  | .resetReadIndex => .resetReadIndex
  | .skipWriteBytes _ => .skipWriteBytes
  | .skipReadBytes _ => .skipReadBytes

/-- The word of format N (R82). -/
def encodeN (o : Op) : CommandWord := commandWord (opCode o) false 0 0 0

/-- The word of formats C and V32 (R82). -/
def encodeA (o : Op) (a : Word) : CommandWord := commandWord (opCode o) false a 0 0

/-- The word of format V64: value[31:0] in `A`, value[63:32] in `B` (R82). -/
def encodeV64 (o : Op) (v : Long) : CommandWord :=
  commandWord (opCode o) false (v.extractLsb' 0 32) (v.extractLsb' 32 32) 0

/-- The word of a well-formed command. -/
def encode : Instr → CommandWord
  | .initSize size => encodeA .initSize size
  | .initArray av len => commandWord (opCode .initArray) av 0 0 len
  | .capacity => encodeN .capacity
  | .dataLength => encodeN .dataLength
  | .remainingLength => encodeN .remainingLength
  | .readIndex => encodeN .readIndex
  | .writeIndex => encodeN .writeIndex
  | .write av len offset count => commandWord (opCode .write) av count offset len
  | .readBytes av len offset count => commandWord (opCode .readBytes) av count offset len
  | .readBytesNew count => encodeA .readBytesNew count
  | .writeByte value => encodeA .writeByte (value.setWidth 32)
  | .readByte => encodeN .readByte
  | .writeInt value => encodeA .writeInt value
  | .readInt => encodeN .readInt
  | .writeIntLe value => encodeA .writeIntLe value
  | .readIntLe => encodeN .readIntLe
  | .writeLong value => encodeV64 .writeLong value
  | .readLong => encodeN .readLong
  | .writeLongLe value => encodeV64 .writeLongLe value
  | .readLongLe => encodeN .readLongLe
  | .markWriteIndex => encodeN .markWriteIndex
  | .resetWriteIndex => encodeN .resetWriteIndex
  | .markReadIndex => encodeN .markReadIndex
  | .resetReadIndex => encodeN .resetReadIndex
  | .skipWriteBytes count => encodeA .skipWriteBytes count
  | .skipReadBytes count => encodeA .skipReadBytes count

/-! ### opcode_table.json, as R95 says it is read -/

/-- The `mask` of the row: a one in every bit that must have a fixed value. -/
def rowMask (o : Op) : CommandWord :=
  match opFormat o with
  | .n => 0xFFFFFFFFFFFFFFFFFFFFFFFFFFFFFFFF#128
  | .c => 0xFFFFFFFFFFFFFFFF00000000FFFFFFFF#128
  | .v8 => 0xFFFFFFFFFFFFFFFFFFFFFF00FFFFFFFF#128
  | .v32 => 0xFFFFFFFFFFFFFFFF00000000FFFFFFFF#128
  | .v64 => 0xFFFFFFFF0000000000000000FFFFFFFF#128
  | .d => 0x000000000000000000000000FFFFFEFF#128
  | .k => 0x00000000FFFFFFFFFFFFFFFFFFFFFEFF#128

/-- The `match` of the row: its opcode, every other fixed bit zero. -/
def rowMatch (o : Op) : CommandWord := (opCode o).setWidth 128

/-- The `constraint` of the rows of formats D and K: AV (bit 8) = 0 requires L (bits 127:96) = 0. -/
def rowConstraint (o : Op) (w : CommandWord) : Prop :=
  opFormat o = .d ∨ opFormat o = .k → w.getLsbD 8 = false → w.extractLsb' 96 32 = 0

/-! ### The host's entry -/

/-- The instruction the decoder reads from a table word: a command word is one number of 128 bits, bit 0 the least
significant (R80, R81), so the word's bits are the table's bits. -/
def decodeTableWord (nbits w : Nat) : Option Instr :=
  match decode (BitVec.ofNat 128 (w % 2 ^ nbits)) with
  | .ok i => some i
  | .error _ => none

end Sys2Proof
end

