-- ==== Sys2Proof/Machine/State.lean ====
section
/-! DEFINITION. The state of the block (10_state R20) with the ports and the host's arrays that a step needs, the reasons a step can stop, and the state after hardware reset (R37, 70_reset R230). -/

namespace Sys2Proof.Machine

/-- Bytes by address, the addresses strictly rising, one entry per byte that somebody has written or given. An
address with no entry has no value of its own: storage nobody has written since construction (R37), or an array's
byte its owner has not given. No entry equals what an unlisted address reads as, since that is no value. -/
abbrev Memory := List Host.Cell

/-- The canonical form of a memory. -/
abbrev Memory.wf (m : Memory) : Prop := List.Pairwise (fun c d : Host.Cell => c.1 < d.1) m

/-- The STATUS of a response (30_encoding R85): these seven and no other (93 U10). -/
inductive Status where
  /-- 0x00, the operation was done. -/
  | ok
  /-- 0x01, silent no-op of `write`, `read_bytes`, `read_bytes_new` (60 R203). -/
  | noop
  /-- 0x02, OverwriteError of `skip_write_bytes` (60 R201). -/
  | errOverwrite
  /-- 0x03, ConfigurationError of the constructions (60 R202). -/
  | errConfig
  /-- 0x04, the word is no legal command (60 R204). -/
  | illegal
  /-- 0x05, a command but construction before construction (60 R205). -/
  | notConfigured
  /-- 0x06, a case the source gives no meaning (60 R206): the response of a fault, see `Fault`. -/
  | faultDomain
  deriving DecidableEq, Repr

/-- The operand array of a command (20_memory R53): AV, L, and the bytes at indices 0 to L - 1. Every index of a present
array below L has a byte, listed or not: see `OperandArray.byte?`. -/
structure OperandArray where
  /-- AV: an array is present. -/
  valid : Bool
  /-- L: its length in bytes; a legal word has 0 where no array is present (R88). -/
  length : Word
  /-- Which array it is, the model's own: the free value of a byte nobody has given is taken at it (log 3, 9). -/
  number : Nat
  /-- The bytes somebody has given, by index. -/
  bytes : Memory
  deriving DecidableEq, Repr

/-- No array: AV and L are 0 (R53). -/
def OperandArray.null : OperandArray where
  valid := false
  length := 0
  number := 0
  bytes := []

/-- One response (30_encoding R84), with the operand array as the command leaves it: the destination of `read_bytes`
(41 R123), the array of length `count` that `read_bytes_new` creates (R126, R127), for the others the host's array as it
was. -/
structure Response where
  status : Status
  value : Long
  array : OperandArray
  deriving DecidableEq, Repr

/-- What the host presents to the block: a command word, whose AV and L are those of the operand array it names, with the
bytes of that array (30 R80, 20_memory R53), or a hardware reset between two commands (70 R230). -/
inductive Input where
  | command (word : CommandWord) (array : Memory)
  | hardwareReset
  deriving DecidableEq, Repr

/-- The bytes that come with an input. -/
def inputArray : Input → Memory
  | .command _ array => array
  | .hardwareReset => []

/-- The state. The first eight fields are the block's (R20). `operand`, `inputs` and `responses` are the host's side of
a step (00_scope R8; log 1, 2, 3). `constructions` and `arrays` are the model's own: they number the free values
(log 9). -/
structure State where
  /-- A construction has succeeded since hardware reset (R26). -/
  configured : Bool
  /-- Number of storage bytes (R21). -/
  capacity : Word
  /-- `capacity - 1` (R22). -/
  mask : Word
  /-- The storage bytes by position (R23). -/
  storage : Memory
  /-- Total bytes written, modulo 2^32 (R24). -/
  writeCount : Word
  /-- Total bytes read, modulo 2^32 (R24). -/
  readCount : Word
  /-- Snapshot of `writeCount` (R25). -/
  markedWriteCount : Word
  /-- Snapshot of `readCount` (R25). -/
  markedReadCount : Word
  /-- How many storage arrays there have been: the free value of an unwritten byte is taken at it (log 5, 9). -/
  constructions : Nat
  /-- How many operand arrays there have been, the number of the next one (log 3, 9). -/
  arrays : Nat
  /-- The operand array of the current command (20_memory R53); null between commands. -/
  operand : OperandArray
  /-- What the host has presented and the block has not taken, next first. -/
  inputs : List Input
  /-- The responses given, newest first. No meaning reads them (R8). -/
  responses : List Response
  deriving DecidableEq, Repr

/-- The domain faults of 60_exceptions R206, exactly these four. Each stops the machine: the response is
ST_FAULT_DOMAIN and the state after it is unspecified, so there is no next state (93 U2). All are safe: the model says
less than any hardware does. -/
inductive Fault where
  /-- `write` with `offset + count` beyond the source (41 R121). Safe. -/
  | srcRange
  /-- `read_bytes` with `offset + count` beyond the destination (41 R124). Safe. -/
  | dstRange
  /-- `write`, `read_bytes`, `read_bytes_new` with a head copy longer than storage (20_memory R63). Safe. -/
  | splitOverrun
  /-- `init_array` with a null array (46 R191). Safe. -/
  | nullBacking
  deriving DecidableEq, Repr

/-- Refusals. Every command of R86 has its meaning and every word its outcome, so none is raised (00_scope R9 (c)). -/
inductive Refusal where
  /-- An instruction without a meaning, raised by `exec` alone; no arm raises it. Safe. -/
  | notModelled (mnemonic : String)
  deriving DecidableEq, Repr

/-- What a step of this machine answers. -/
abbrev Outcome := Host.Outcome State Fault Refusal

/-- Right after hardware reset: `configured` is 0 and no response is pending (R230). The spec leaves every other field
of the block unspecified (R37): DESIGN CHOICE 0, log 4; the host has presented nothing, log 11. -/
def State.reset : State where
  configured := false
  capacity := 0
  mask := 0
  storage := []
  writeCount := 0
  readCount := 0
  markedWriteCount := 0
  markedReadCount := 0
  constructions := 0
  arrays := 0
  operand := .null
  inputs := []
  responses := []

end Sys2Proof.Machine
end

