-- ==== Sys2Proof/Machine/Flags.lean ====
section
/-! DEFINITION. The derived values. The block has no flags and no condition codes (10_state R34): its conditions are computed from the registers whenever a rule names them (R27 to R30), and here is where. -/

namespace Sys2Proof.Machine

/-- A counter's place in storage: the counter AND the mask (R24, R36). -/
def indexOf (counter mask : Word) : Word := counter &&& mask

/-- R27. -/
def State.writeIndex (s : State) : Word := indexOf s.writeCount s.mask

/-- R28. -/
def State.readIndex (s : State) : Word := indexOf s.readCount s.mask

/-- R29: the number of unread bytes, an unsigned subtraction that wraps. -/
def State.dataLength (s : State) : Word := s.writeCount - s.readCount

/-- R30: the free space, an integer subtraction that may go negative (92 D10). -/
def State.remainingLength (s : State) : Int := (s.capacity.toNat : Int) - (s.dataLength.toNat : Int)

/-- `IsPow2` of 46_construction R192. -/
def isPow2 (n : Word) : Bool := n != 0 && (n &&& (n - 1)) == 0

/-- The position of byte `k` of an access at index `x`: `(x + k) & mask` (43 R150). -/
def position (x mask : Word) (k : Nat) : Nat := (indexOf (x + BitVec.ofNat 32 k) mask).toNat

end Sys2Proof.Machine
end

