-- ==== Sys2Proof/Machine/Operands.lean ====
section
/-! DEFINITION. The bytes of a value and the value of bytes (20_memory R55, R56), and how STATUS and VALUE stand in the response word (30_encoding R84, R85). -/

namespace Sys2Proof.Machine

/-- Byte `k` of a 32-bit value, most significant first: V[31 - 8k : 24 - 8k] (R55). -/
def intByte (v : Word) (k : Nat) : Byte := v.extractLsb' (24 - 8 * k) 8

/-- Byte `k` of a 32-bit value, least significant first: V[8k + 7 : 8k] (R56). -/
def intByteLe (v : Word) (k : Nat) : Byte := v.extractLsb' (8 * k) 8

/-- Byte `k` of a 64-bit value, most significant first: V[63 - 8k : 56 - 8k] (R55). -/
def longByte (v : Long) (k : Nat) : Byte := v.extractLsb' (56 - 8 * k) 8

/-- Byte `k` of a 64-bit value, least significant first (R56). -/
def longByteLe (v : Long) (k : Nat) : Byte := v.extractLsb' (8 * k) 8

/-- b0 ++ b1 ++ b2 ++ b3 (43 R152). -/
def joinInt (b : Nat → Byte) : Word := b 0 ++ b 1 ++ b 2 ++ b 3

/-- b3 ++ b2 ++ b1 ++ b0 (43 R154). -/
def joinIntLe (b : Nat → Byte) : Word := b 3 ++ b 2 ++ b 1 ++ b 0

/-- b0 ++ … ++ b7 (43 R156). -/
def joinLong (b : Nat → Byte) : Long := b 0 ++ b 1 ++ b 2 ++ b 3 ++ b 4 ++ b 5 ++ b 6 ++ b 7

/-- b7 ++ … ++ b0 (43 R158). -/
def joinLongLe (b : Nat → Byte) : Long := b 7 ++ b 6 ++ b 5 ++ b 4 ++ b 3 ++ b 2 ++ b 1 ++ b 0

/-- `zext_64` (00_scope R13). -/
def zext64 {n : Nat} (v : BitVec n) : Long := v.setWidth 64

/-- `sext_64` of an integer: its 64-bit two's-complement pattern (00_scope R13). -/
def sext64 (v : Int) : Long := BitVec.ofInt 64 v

/-- The STATUS codes of 30_encoding R85. -/
def statusCode : Status → BitVec 8
  | .ok => 0x00#8
  | .noop => 0x01#8
  | .errOverwrite => 0x02#8
  | .errConfig => 0x03#8
  | .illegal => 0x04#8
  | .notConfigured => 0x05#8
  | .faultDomain => 0x06#8

/-- RSP[71:0]: STATUS in bits 71:64, VALUE in bits 63:0 (30_encoding R84). -/
def responseWord (r : Response) : ResponseWord := statusCode r.status ++ r.value

/-- The response to a command that ends in a domain fault: ST_FAULT_DOMAIN and VALUE 0, the reason not reported (60
R206). It is no part of a next state, since there is none (log 7). The spec leaves every byte of the destination array
unspecified after DST_RANGE and a SPLIT_OVERRUN on a read; the null array in that place is the model's, for every reason
(DESIGN CHOICE, log 19, unsafe). -/
def faultResponse (_ : Fault) : Response := { status := .faultDomain, value := 0, array := .null }

end Sys2Proof.Machine
end

