-- ==== Sys2Proof/Machine/Ops.lean ====
section
/-! DEFINITION. The named operations over memory, the registers and the ports: reading and writing one byte, runs of bytes, CopyIn and CopyOut (20_memory R60, R61), the ends of a command (00_scope R14, 60_exceptions R200 to R206), and taking the next input. -/

namespace Sys2Proof.Machine

/-! ### One byte -/

/-- The byte listed at address `a`, if any. -/
def Memory.read? : Memory → Nat → Option Byte
  | [], _ => none
  | (b, v) :: m, a => if a = b then some v else Memory.read? m a

/-- The memory with byte `v` at address `a`, in canonical form. -/
def Memory.write : Memory → Nat → Byte → Memory
  | [], a, v => [(a, v)]
  | (b, w) :: m, a, v =>
    if a < b then (a, v) :: (b, w) :: m
    else if a = b then (a, v) :: m
    else (b, w) :: Memory.write m a v

/-- `MemRead(p, 1)` (00_scope R14, 20_memory R50): the byte last written at position `p`, or the construction-time
byte, which after `init_size` is a free value (10_state R37; DESIGN CHOICE, log 5). -/
def State.memRead (s : State) (p : Nat) : Byte :=
  (Memory.read? s.storage p).getD (Config.storageByte s.constructions p)

/-- Byte `i` of an operand array; a byte its owner has not given, and every byte of a new array before the block fills
it, is a free value (41 R126, R127, 93 U5; DESIGN CHOICE, log 3, 10). -/
def OperandArray.byte (a : OperandArray) (i : Nat) : Byte :=
  (Memory.read? a.bytes i).getD (Config.operandByte a.number i)

/-- The array as a function of its index: a present one has a byte at each of the indices 0 to L - 1 and at no other, a
null one has none (20_memory R53). -/
def OperandArray.byte? (a : OperandArray) (i : Nat) : Option Byte :=
  if a.valid = true ∧ i < a.length.toNat then some (a.byte i) else none

/-- `OaRead(i)` (00_scope R14, 20_memory R53): byte `i` of the operand array. -/
def State.oaRead (s : State) (i : Nat) : Byte := s.operand.byte i

/-! ### Runs of bytes, in ascending order (20_memory R59, 92 D20) -/

/-- Byte `b j` written at address `pos j`, for j = 0, 1, …, n - 1 in this order. -/
def storeRun (pos : Nat → Nat) (b : Nat → Byte) : Nat → Memory → Memory
  | 0, m => m
  | n + 1, m => Memory.write (storeRun pos b n m) (pos n) (b n)

/-- `CopyIn(off, count)` of 20_memory R60: storage after the copy. The difference `capacity - write_index` is 1 or more
while `mask` is `capacity - 1` (log 12). -/
def copyIn (off count : Nat) (s : State) : Except Fault Memory :=
  let x := s.writeIndex.toNat
  let first := s.capacity.toNat - x
  if first > count then
    .ok (storeRun (fun j => x + j) (fun j => s.oaRead (off + j)) count s.storage)
  else
    let rem := count - first
    if rem > s.capacity.toNat then .error .splitOverrun
    else
      let tail := storeRun (fun j => x + j) (fun j => s.oaRead (off + j)) first s.storage
      .ok (storeRun (fun j => j) (fun j => s.oaRead (off + first + j)) rem tail)

/-- `CopyOut(off, count)` of 20_memory R61: the bytes of the operand array after the copy. -/
def copyOut (off count : Nat) (s : State) : Except Fault Memory :=
  let x := s.readIndex.toNat
  let first := s.capacity.toNat - x
  if first > count then
    .ok (storeRun (fun j => off + j) (fun j => s.memRead (x + j)) count s.operand.bytes)
  else
    let rem := count - first
    if rem > s.capacity.toNat then .error .splitOverrun
    else
      let tail := storeRun (fun j => off + j) (fun j => s.memRead (x + j)) first s.operand.bytes
      .ok (storeRun (fun j => off + first + j) (fun j => s.memRead j) rem tail)

/-! ### The registers -/

/-- `write_count <- write_count +32 n` (10_state R24). -/
def State.advanceWrite (s : State) (n : Word) : State := { s with writeCount := s.writeCount + n }

/-- `read_count <- read_count +32 n` (10_state R24). -/
def State.advanceRead (s : State) (n : Word) : State := { s with readCount := s.readCount + n }

/-- The state a successful construction leaves (46 R190, R191), with `storage` as given: everything earlier is
discarded, and the storage array is a new one. -/
def State.construct (s : State) (size : Word) (storage : Memory) : State :=
  { s with
    configured := true
    capacity := size
    mask := size - 1
    storage := storage
    writeCount := 0
    readCount := 0
    markedWriteCount := 0
    markedReadCount := 0
    constructions := s.constructions + 1 }

/-- The array `read_bytes_new` creates: present, of length `count`, contents unspecified, so no byte is listed and each
is a free value of this array (41 R126, R127). -/
def State.freshArray (s : State) (count : Word) : State :=
  { s with
    operand := { valid := true, length := count, number := s.arrays, bytes := [] }
    arrays := s.arrays + 1 }

/-- The operand array with these bytes: what its owner is handed back after a copy out (41 R123). -/
def State.fillOperand (s : State) (bytes : Memory) : State :=
  { s with operand := { s.operand with bytes := bytes } }

/-! ### The ends of a command (00_scope R14) -/

/-- The response is produced and the operand array goes back to the host. -/
def State.respond (s : State) (status : Status) (value : Long) : State :=
  { s with
    operand := .null
    responses := { status := status, value := value, array := s.operand } :: s.responses }

/-- `respond(ST_OK, value)`. -/
def succeed (s : State) (value : Long) : Outcome := .next (s.respond .ok value)

/-- Taking an error, the one operation for all of them (60 R201, R202, R204, R205, R209): the response carries the
status and VALUE 0, and no state of the block is written. There is no handler, no saved state and so no return (60
R209, R211). -/
def raise (s : State) (status : Status) : Outcome := .next (s.respond status 0)

/-- How a silent no-op is reported (60 R203; SILENT_NOOP, log 6). -/
def noopStatus : Status := if Config.silentNoop then .ok else .noop

/-- `noop` (60 R203): nothing is written, no operand array is written. -/
def silentNoop (s : State) : Outcome := raise s noopStatus

/-- `fault_domain(reason)` (60 R206): no state follows (log 7). -/
def faultDomain (reason : Fault) : Outcome := .fault reason

/-- The not-configured check (60 R205, R208 step 2), before a command's own `body`. -/
def whenConfigured (s : State) (body : Outcome) : Outcome :=
  if s.configured then body else raise s .notConfigured

/-! ### The codecs' common part (43 R150) -/

/-- Write `n` bytes at `write_index`, each position masked by itself, and advance `write_count` by `n`. -/
def writeMasked (n : Nat) (b : Nat → Byte) (s : State) : Outcome :=
  succeed
    (({ s with storage := storeRun (position s.writeIndex s.mask) b n s.storage } : State).advanceWrite
      (BitVec.ofNat 32 n)) 0

/-- Byte `k` at `read_index`, its position masked by itself. -/
def State.maskedByte (s : State) (k : Nat) : Byte := s.memRead (position s.readIndex s.mask k)

/-- Read `n` bytes' worth: advance `read_count` by `n` and answer `value`. -/
def readMasked (n : Nat) (value : Long) (s : State) : Outcome :=
  succeed (s.advanceRead (BitVec.ofNat 32 n)) value

/-! ### The ports -/

/-- The block takes a command: the array it names by AV and L becomes the operand array (20_memory R53), the other
inputs wait. -/
def State.take (s : State) (w : CommandWord) (array : Memory) (rest : List Input) : State :=
  { s with
    inputs := rest
    operand := { valid := fieldAv w, length := fieldL w, number := s.arrays, bytes := array }
    arrays := s.arrays + 1 }

/-- An illegal word (30 R89, 60 R204): the answer is the same whatever makes it illegal. -/
def illegalWord (_ : DecodeError) (s : State) : Outcome := raise s .illegal

/-- Hardware reset between two commands (70 R230): the block is as `State.reset` has it (log 4, 8), with a new storage
array; what the host has presented and been given stays the host's. -/
def State.hardwareReset (s : State) (rest : List Input) : State :=
  { State.reset with
    constructions := s.constructions + 1
    arrays := s.arrays
    inputs := rest
    responses := s.responses }

/-- A command word put before the inputs, with an operand array of which no byte is given. -/
def State.presentWord (s : State) (w : CommandWord) : State :=
  { s with inputs := .command w [] :: s.inputs }

end Sys2Proof.Machine
end

