-- ==== Sys2Proof/Machine/BulkCopy.lean ====
section
/-! DEFINITION. The bulk copies (41_bulk_copy). Sums of operands are integer sums without wrap. -/

namespace Sys2Proof.Machine

/-- `write` after its checks: the copy in, and `write_count` advances by `count` (R120). -/
def copyInAndAdvance (offset count : Word) (s : State) : Outcome :=
  match copyIn offset.toNat count.toNat s with
  | .error reason => faultDomain reason
  | .ok storage => succeed (({ s with storage := storage } : State).advanceWrite count) 0

/-- `read_bytes` after its checks: the copy out, and `read_count` advances by `count` (R123, R126). -/
def copyOutAndAdvance (offset count : Word) (s : State) : Outcome :=
  match copyOut offset.toNat count.toNat s with
  | .error reason => faultDomain reason
  | .ok bytes => succeed ((s.fillOperand bytes).advanceRead count) 0

/-- `write(source, source_offset, count)` (R120, R121). -/
def execWrite (av : Bool) (len offset count : Word) (s : State) : Outcome :=
  whenConfigured s <|
    if av = false then silentNoop s
    else if len.toNat = 0 then silentNoop s
    else if offset.toNat > len.toNat then silentNoop s
    else if offset.toNat + count.toNat > len.toNat then faultDomain .srcRange
    else copyInAndAdvance offset count s

/-- `read_bytes(destination, destination_offset, count)` (R123, R124). -/
def execReadBytes (av : Bool) (len offset count : Word) (s : State) : Outcome :=
  whenConfigured s <|
    if av = false then silentNoop s
    else if offset.toNat > len.toNat then silentNoop s
    else if s.dataLength.toNat < count.toNat then silentNoop s
    else if offset.toNat + count.toNat > len.toNat then faultDomain .dstRange
    else copyOutAndAdvance offset count s

/-- `read_bytes_new(count)` (R126, R127). -/
def execReadBytesNew (count : Word) (s : State) : Outcome :=
  whenConfigured s <|
    if s.dataLength.toNat < count.toNat then silentNoop (s.freshArray count)
    else copyOutAndAdvance 0 count (s.freshArray count)

end Sys2Proof.Machine
end

