-- ==== Sys2Proof/Machine/Codec.lean ====
section
/-! DEFINITION. The eight fixed-width integer codecs (43_int_codec), over the common part of R150. -/

namespace Sys2Proof.Machine

/-- `write_int(value)` (R151). -/
def execWriteInt (value : Word) (s : State) : Outcome :=
  whenConfigured s (writeMasked 4 (intByte value) s)

/-- `read_int()` (R152). -/
def execReadInt (s : State) : Outcome :=
  whenConfigured s (readMasked 4 (zext64 (joinInt s.maskedByte)) s)

/-- `write_int_le(value)` (R153). -/
def execWriteIntLe (value : Word) (s : State) : Outcome :=
  whenConfigured s (writeMasked 4 (intByteLe value) s)

/-- `read_int_le()` (R154). -/
def execReadIntLe (s : State) : Outcome :=
  whenConfigured s (readMasked 4 (zext64 (joinIntLe s.maskedByte)) s)

/-- `write_long(value)` (R155). -/
def execWriteLong (value : Long) (s : State) : Outcome :=
  whenConfigured s (writeMasked 8 (longByte value) s)

/-- `read_long()` (R156). -/
def execReadLong (s : State) : Outcome :=
  whenConfigured s (readMasked 8 (joinLong s.maskedByte) s)

/-- `write_long_le(value)` (R157). -/
def execWriteLongLe (value : Long) (s : State) : Outcome :=
  whenConfigured s (writeMasked 8 (longByteLe value) s)

/-- `read_long_le()` (R158). -/
def execReadLongLe (s : State) : Outcome :=
  whenConfigured s (readMasked 8 (joinLongLe s.maskedByte) s)

end Sys2Proof.Machine
end

