-- ==== Sys2Proof/Machine/Construct.lean ====
section
/-! DEFINITION. The two constructions (46_construction). The not-configured check does not apply to them. -/

namespace Sys2Proof.Machine

/-- `init_size(size)` (R190). -/
def execInitSize (size : Word) (s : State) : Outcome :=
  if isPow2 size then succeed (s.construct size []) 0 else raise s .errConfig

/-- `init_array(array)` (R191). -/
def execInitArray (av : Bool) (len : Word) (s : State) : Outcome :=
  if av = false then faultDomain .nullBacking
  else if isPow2 len then
    succeed (s.construct len (storeRun (fun i => i) s.oaRead len.toNat [])) 0
  else raise s .errConfig

end Sys2Proof.Machine
end

