-- ==== Sys2Proof/Machine/MarkReset.lean ====
section
/-! DEFINITION. Mark and reset of the counters (44_mark_reset): plain register copies. -/

namespace Sys2Proof.Machine

/-- `mark_write_index()` (R170). -/
def execMarkWriteIndex (s : State) : Outcome :=
  whenConfigured s (succeed { s with markedWriteCount := s.writeCount } 0)

/-- `reset_write_index()` (R171). -/
def execResetWriteIndex (s : State) : Outcome :=
  whenConfigured s (succeed { s with writeCount := s.markedWriteCount } 0)

/-- `mark_read_index()` (R172). -/
def execMarkReadIndex (s : State) : Outcome :=
  whenConfigured s (succeed { s with markedReadCount := s.readCount } 0)

/-- `reset_read_index()` (R173). -/
def execResetReadIndex (s : State) : Outcome :=
  whenConfigured s (succeed { s with readCount := s.markedReadCount } 0)

end Sys2Proof.Machine
end

