-- ==== Sys2Proof/Machine/Observers.lean ====
section
/-! DEFINITION. The five observers (40_observers). They write no state. -/

namespace Sys2Proof.Machine

/-- `capacity()` (R110). -/
def execCapacity (s : State) : Outcome := whenConfigured s (succeed s (zext64 s.capacity))

/-- `data_length()` (R111). -/
def execDataLength (s : State) : Outcome := whenConfigured s (succeed s (zext64 s.dataLength))

/-- `remaining_length()` (R112). -/
def execRemainingLength (s : State) : Outcome := whenConfigured s (succeed s (sext64 s.remainingLength))

/-- `read_index()` (R113). -/
def execReadIndex (s : State) : Outcome := whenConfigured s (succeed s (zext64 s.readIndex))

/-- `write_index()` (R114). -/
def execWriteIndex (s : State) : Outcome := whenConfigured s (succeed s (zext64 s.writeIndex))

end Sys2Proof.Machine
end

