-- ==== Sys2Proof/Machine/SingleByte.lean ====
section
/-! DEFINITION. The single-byte operations (42_single_byte). They check nothing but `configured`. -/

namespace Sys2Proof.Machine

/-- `write_byte(value)` (R140). -/
def execWriteByte (value : Byte) (s : State) : Outcome :=
  whenConfigured s <|
    succeed
      (({ s with storage := Memory.write s.storage s.writeIndex.toNat value } : State).advanceWrite 1) 0

/-- `read_byte()` (R141). -/
def execReadByte (s : State) : Outcome :=
  whenConfigured s <| succeed (s.advanceRead 1) (zext64 (s.memRead s.readIndex.toNat))

end Sys2Proof.Machine
end

