-- ==== Sys2Proof/Machine/Skip.lean ====
section
/-! DEFINITION. Skip (45_skip): a counter advances without a copy. -/

namespace Sys2Proof.Machine

/-- `skip_write_bytes(count)` (R180): the comparison is of integers, `remaining_length` may be negative. -/
def execSkipWriteBytes (count : Word) (s : State) : Outcome :=
  whenConfigured s <|
    if (count.toNat : Int) > s.remainingLength then raise s .errOverwrite
    else succeed (s.advanceWrite count) 0

/-- `skip_read_bytes(count)` (R181): unchecked. -/
def execSkipReadBytes (count : Word) (s : State) : Outcome :=
  whenConfigured s (succeed (s.advanceRead count) 0)

end Sys2Proof.Machine
end

