-- ==== Sys2Proof/Machine/Dispatch.lean ====
section
/-! DEFINITION. One arm per command, each one call of its meaning (30_encoding R86). -/

namespace Sys2Proof.Machine

def exec (i : Instr) (s : State) : Host.Outcome State Fault Refusal :=
  match i with
  | .initSize size => Sys2Proof.Machine.execInitSize size s
  | .initArray av len => Sys2Proof.Machine.execInitArray av len s
  | .capacity => Sys2Proof.Machine.execCapacity s
  | .dataLength => Sys2Proof.Machine.execDataLength s
  | .remainingLength => Sys2Proof.Machine.execRemainingLength s
  | .readIndex => Sys2Proof.Machine.execReadIndex s
  | .writeIndex => Sys2Proof.Machine.execWriteIndex s
  | .write av len offset count => Sys2Proof.Machine.execWrite av len offset count s
  | .readBytes av len offset count => Sys2Proof.Machine.execReadBytes av len offset count s
  | .readBytesNew count => Sys2Proof.Machine.execReadBytesNew count s
  | .writeByte value => Sys2Proof.Machine.execWriteByte value s
  | .readByte => Sys2Proof.Machine.execReadByte s
  | .writeInt value => Sys2Proof.Machine.execWriteInt value s
  | .readInt => Sys2Proof.Machine.execReadInt s
  | .writeIntLe value => Sys2Proof.Machine.execWriteIntLe value s
  | .readIntLe => Sys2Proof.Machine.execReadIntLe s
  | .writeLong value => Sys2Proof.Machine.execWriteLong value s
  | .readLong => Sys2Proof.Machine.execReadLong s
  | .writeLongLe value => Sys2Proof.Machine.execWriteLongLe value s
  | .readLongLe => Sys2Proof.Machine.execReadLongLe s
  | .markWriteIndex => Sys2Proof.Machine.execMarkWriteIndex s
  | .resetWriteIndex => Sys2Proof.Machine.execResetWriteIndex s
  | .markReadIndex => Sys2Proof.Machine.execMarkReadIndex s
  | .resetReadIndex => Sys2Proof.Machine.execResetReadIndex s
  | .skipWriteBytes count => Sys2Proof.Machine.execSkipWriteBytes count s
  | .skipReadBytes count => Sys2Proof.Machine.execSkipReadBytes count s

end Sys2Proof.Machine
end

