-- ==== Sys2Proof/Machine/Step.lean ====
section
/-! DEFINITION. One step of the block (00_scope R6, R7): the next input is taken and answered whole. -/

namespace Sys2Proof.Machine

/-- A command is decoded, checked, done and answered in one step (R7); an illegal word is answered before any look at
the state (30_encoding R91); with nothing presented the block is idle and holds its state (60_exceptions R216). -/
def step (s : State) : Host.Outcome State Fault Refusal :=
  match s.inputs with
  | [] => .next s
  | .hardwareReset :: rest => .next (s.hardwareReset rest)
  | .command w array :: rest =>
    match decode w with
    | .error e => illegalWord e (s.take w array rest)
    | .ok i => exec i (s.take w array rest)

/-- `s` with the table's word as the next command the block takes (log 11). -/
def State.withFetchWord (s : State) (nbits w : Nat) : State :=
  s.presentWord (BitVec.ofNat 128 (w % 2 ^ nbits))

end Sys2Proof.Machine
end

