-- ==== Sys2Proof/Safety.lean ====
section
/-! DEFINITION. The terms claims use: the invariant, the conditional bound and the host's duties (10_state R33, 60_exceptions R203, R206), families of commands, what a command leaves unchanged, and runs of commands. -/

namespace Sys2Proof.Machine

/-! ### The invariant -/

/-- What every step keeps: while configured, `capacity` is a power of two and `mask` is `capacity - 1` (10_state R21,
R22); every memory is in canonical form; every listed storage byte is at a position below `capacity` (R23, 20_memory
R50), and before a construction there is none. -/
abbrev Inv (s : State) : Prop :=
  (s.configured = true → isPow2 s.capacity = true ∧ s.mask = s.capacity - 1) ∧
  Memory.wf s.storage ∧
  (∀ c ∈ s.storage, s.configured = true ∧ c.1 < s.capacity.toNat) ∧
  Memory.wf s.operand.bytes ∧
  (∀ x ∈ s.inputs, Memory.wf (inputArray x)) ∧
  (∀ r ∈ s.responses, Memory.wf r.array.bytes)

/-- The conditional property of R33: unread data do not exceed `capacity`. No command but `read_bytes` and
`skip_write_bytes` looks at it; it is no rule of the block. -/
abbrev Bounded (s : State) : Prop := s.dataLength.toNat ≤ s.capacity.toNat

/-- What the host must see to for a command to keep `Bounded` (R33, 70_reset R234, R235, R237, R238). -/
def hostDuty (i : Instr) (s : State) : Prop :=
  match i with
  | .write _ _ _ count => (count.toNat : Int) ≤ s.remainingLength
  | .writeByte _ => 1 ≤ s.remainingLength
  | .writeInt _ | .writeIntLe _ => 4 ≤ s.remainingLength
  | .writeLong _ | .writeLongLe _ => 8 ≤ s.remainingLength
  | .readByte => 1 ≤ s.dataLength.toNat
  | .readInt | .readIntLe => 4 ≤ s.dataLength.toNat
  | .readLong | .readLongLe => 8 ≤ s.dataLength.toNat
  | .skipReadBytes count => count.toNat ≤ s.dataLength.toNat
  | .resetWriteIndex => (s.markedWriteCount - s.readCount).toNat ≤ s.capacity.toNat
  | .resetReadIndex => (s.writeCount - s.markedReadCount).toNat ≤ s.capacity.toNat
  | .initSize _ | .initArray _ _ | .capacity | .dataLength | .remainingLength | .readIndex
  | .writeIndex | .readBytes _ _ _ _ | .readBytesNew _ | .markWriteIndex | .markReadIndex
  | .skipWriteBytes _ => True

/-- A copy of `count` bytes at index `x` wraps at most once: count - (capacity - x) ≤ capacity (20_memory R62, R63). -/
abbrev FitsSplit (s : State) (x count : Word) : Prop :=
  count.toNat + x.toNat ≤ 2 * s.capacity.toNat

/-- `write` has passed its checks for a silent no-op (41 R120). -/
abbrev WriteProceeds (s : State) (av : Bool) (len offset : Word) : Prop :=
  s.configured = true ∧ av = true ∧ len.toNat ≠ 0 ∧ offset.toNat ≤ len.toNat

/-- `read_bytes` has passed its checks for a silent no-op (41 R123). -/
abbrev ReadProceeds (s : State) (av : Bool) (len offset count : Word) : Prop :=
  s.configured = true ∧ av = true ∧ offset.toNat ≤ len.toNat ∧ count.toNat ≤ s.dataLength.toNat

/-- The table of 60_exceptions R206: which command meets which domain fault, and when. -/
def FaultCase (r : Fault) (i : Instr) (s : State) : Prop :=
  match r with
  | .srcRange => ∃ av len offset count, i = .write av len offset count ∧
      WriteProceeds s av len offset ∧ len.toNat < offset.toNat + count.toNat
  | .dstRange => ∃ av len offset count, i = .readBytes av len offset count ∧
      ReadProceeds s av len offset count ∧ len.toNat < offset.toNat + count.toNat
  | .splitOverrun =>
      (∃ av len offset count, i = .write av len offset count ∧ WriteProceeds s av len offset ∧
        offset.toNat + count.toNat ≤ len.toNat ∧ ¬ FitsSplit s s.writeIndex count) ∨
      (∃ av len offset count, i = .readBytes av len offset count ∧ ReadProceeds s av len offset count ∧
        offset.toNat + count.toNat ≤ len.toNat ∧ ¬ FitsSplit s s.readIndex count) ∨
      (∃ count, i = .readBytesNew count ∧ s.configured = true ∧ count.toNat ≤ s.dataLength.toNat ∧
        ¬ FitsSplit s s.readIndex count)
  | .nullBacking => ∃ len, i = .initArray false len

/-- The cause of a silent no-op, complete (60_exceptions R203). -/
def NoopCase (i : Instr) (s : State) : Prop :=
  match i with
  | .write av len offset _ => av = false ∨ len.toNat = 0 ∨ len.toNat < offset.toNat
  | .readBytes av len offset count =>
    av = false ∨ len.toNat < offset.toNat ∨ s.dataLength.toNat < count.toNat
  | .readBytesNew count => s.dataLength.toNat < count.toNat
  | .initSize _ | .initArray _ _ | .capacity | .dataLength | .remainingLength | .readIndex
  | .writeIndex | .writeByte _ | .readByte
  | .writeInt _ | .readInt | .writeIntLe _ | .readIntLe
  | .writeLong _ | .readLong | .writeLongLe _ | .readLongLe
  | .markWriteIndex | .resetWriteIndex | .markReadIndex | .resetReadIndex
  | .skipWriteBytes _ | .skipReadBytes _ => False

/-! ### Families of commands (10_state R20, R24) -/

/-- The two constructions. -/
def isConstruction (i : Instr) : Bool := [Op.initSize, .initArray].contains (instrOp i)

/-- The write family: the commands that store bytes and advance `write_count` (R23, R24). -/
def isWriter (i : Instr) : Bool :=
  [Op.write, .writeByte, .writeInt, .writeIntLe, .writeLong, .writeLongLe].contains (instrOp i)

/-- The read family: the commands that fetch bytes and advance `read_count` (R24). -/
def isReader (i : Instr) : Bool :=
  [Op.readBytes, .readBytesNew, .readByte, .readInt, .readIntLe, .readLong, .readLongLe].contains
    (instrOp i)

/-- The five observers (40_observers). -/
def isObserver (i : Instr) : Bool :=
  [Op.capacity, .dataLength, .remainingLength, .readIndex, .writeIndex].contains (instrOp i)

/-- The table of 60_exceptions R207: the statuses a command may answer with. -/
def mayAnswer (i : Instr) : List Status :=
  match instrOp i with
  | .initSize | .initArray => [.ok, .errConfig]
  | .write | .readBytes | .readBytesNew => [.ok, .noop, .notConfigured]
  | .skipWriteBytes => [.ok, .errOverwrite, .notConfigured]
  | .capacity | .dataLength | .remainingLength | .readIndex | .writeIndex
  | .writeByte | .readByte
  | .writeInt | .readInt | .writeIntLe | .readIntLe | .writeLong | .readLong | .writeLongLe | .readLongLe
  | .markWriteIndex | .resetWriteIndex | .markReadIndex | .resetReadIndex
  | .skipReadBytes => [.ok, .notConfigured]

/-! ### What is unchanged -/

/-- `capacity`, `mask` and `configured`, and which storage array it is. -/
abbrev ControlKept (s t : State) : Prop :=
  t.configured = s.configured ∧ t.capacity = s.capacity ∧ t.mask = s.mask ∧
    t.constructions = s.constructions

/-- Every byte of storage, listed or not. -/
abbrev StorageKept (s t : State) : Prop :=
  t.storage = s.storage ∧ ∀ p, t.memRead p = s.memRead p

/-- `write_count` and its mark. -/
abbrev WriteSideKept (s t : State) : Prop :=
  t.writeCount = s.writeCount ∧ t.markedWriteCount = s.markedWriteCount

/-- `read_count` and its mark. -/
abbrev ReadSideKept (s t : State) : Prop :=
  t.readCount = s.readCount ∧ t.markedReadCount = s.markedReadCount

/-- All eight fields of the block (R20). -/
abbrev BlockKept (s t : State) : Prop :=
  ControlKept s t ∧ StorageKept s t ∧ WriteSideKept s t ∧ ReadSideKept s t

/-- The host's side of a step from `s` to `t` that answers `status`, `value` and hands back `array`: one response more,
no input taken, the operand array gone back to the host. -/
abbrev Answered (s t : State) (status : Status) (value : Long) (array : OperandArray) : Prop :=
  t.responses = { status := status, value := value, array := array } :: s.responses ∧
    t.inputs = s.inputs ∧ t.operand = .null

/-- The array the host gave goes back as it was, and no array is created. -/
abbrev AnsweredPlain (s t : State) (status : Status) (value : Long) : Prop :=
  Answered s t status value s.operand ∧ t.arrays = s.arrays

/-- From `s` to `t`, byte `b k` has been stored at `(write_index + k) & mask` for k = 0, …, n - 1 in this order, the
highest `k` winning where two fall on one position (20_memory R59, R62, 43 R159), and no other position has changed. -/
abbrev WroteBytes (s t : State) (n : Nat) (b : Nat → Byte) : Prop :=
  (∀ k < n, (∀ k' < n, k < k' → position s.writeIndex s.mask k' ≠ position s.writeIndex s.mask k) →
    t.memRead (position s.writeIndex s.mask k) = b k) ∧
  (∀ p, (∀ k < n, p ≠ position s.writeIndex s.mask k) → t.memRead p = s.memRead p)

/-! ### Runs of commands -/

/-- The commands one after another, each on the state the one before it leaves. -/
def execAll : List Instr → State → Outcome
  | [], s => .next s
  | i :: is, s =>
    match exec i s with
    | .next t => execAll is t
    | .fault r => .fault r
    | .refused r => .refused r

/-- Command `i` and then command `j` run, and the second answers ST_OK with `value`. -/
abbrev ReadsBack (i j : Instr) (s : State) (value : Long) : Prop :=
  ∃ t u r rest, exec i s = .next t ∧ exec j t = .next u ∧ u.responses = r :: rest ∧
    r.status = .ok ∧ r.value = value

/-- Two ways to do the same to the block: both run from `s`, and all eight fields agree afterwards. -/
abbrev SameEffect (a b : Outcome) : Prop :=
  ∃ t u, a = .next t ∧ b = .next u ∧ BlockKept t u

/-! ### Counters moved together (10_state R31, R38) -/

/-- The state with `d` added to all four counters. -/
def State.offset (s : State) (d : Word) : State :=
  { s with
    writeCount := s.writeCount + d
    readCount := s.readCount + d
    markedWriteCount := s.markedWriteCount + d
    markedReadCount := s.markedReadCount + d }

/-- The same of what a step answers. -/
def offsetOutcome (d : Word) : Outcome → Outcome
  | .next t => .next (t.offset d)
  | .fault r => .fault r
  | .refused r => .refused r

/-! ### Bytes of values in the other order (43_int_codec R160) -/

/-- The four bytes of a 32-bit value reversed. -/
def rev4 (v : Word) : Word :=
  v.extractLsb' 0 8 ++ v.extractLsb' 8 8 ++ v.extractLsb' 16 8 ++ v.extractLsb' 24 8

/-- The eight bytes of a 64-bit value reversed. -/
def rev8 (v : Long) : Long :=
  v.extractLsb' 0 8 ++ v.extractLsb' 8 8 ++ v.extractLsb' 16 8 ++ v.extractLsb' 24 8 ++
    v.extractLsb' 32 8 ++ v.extractLsb' 40 8 ++ v.extractLsb' 48 8 ++ v.extractLsb' 56 8

end Sys2Proof.Machine
end

