-- ==== Sys2Proof/Certificates/Slice0/Obligations.lean ====
section
/-! DEFINITION. The statements for the provers, each from numbered rules of spec/. -/

open Sys2Proof Sys2Proof.Machine

/-! ### Encoding (30_encoding) -/

/-- R88, R91: decoding the word of a well-formed command gives the command back, every operand at every value. -/
def Obligations.DecodeOfEncodeIsIdentity : Prop :=
  ∀ i : Instr, wellFormed i = true → decode (encode i) = .ok i

/-- R88, R91: a legal word decodes to a well-formed command, and is the one word of that command. -/
def Obligations.EncodeOfDecodeIsIdentity : Prop :=
  ∀ (w : CommandWord) (i : Instr), decode w = .ok i → wellFormed i = true ∧ encode i = w

/-- R95: a word decodes to a row's command exactly when it matches the row under the row's mask and meets the row's
constraint. -/
def Obligations.LegalWordsAreTheTableRows : Prop :=
  ∀ (w : CommandWord) (o : Op),
    (∃ i, decode w = .ok i ∧ instrOp i = o) ↔ (w &&& rowMask o = rowMatch o ∧ rowConstraint o w)

/-- R94, and table V10 of 95_test_vectors: the words the spec writes out, legal and illegal. The spec refuses the illegal
ones and gives no reason; the name each is refused with is the model's choice (log 17). -/
def Obligations.SpecExampleWordsDecode : Prop :=
  decode 0x00000000000000000000000000000011#128 = .ok .dataLength ∧
  decode 0x00000000000000000000008000000001#128 = .ok (.initSize 128) ∧
  decode 0x0000000000000000000000AB00000030#128 = .ok (.writeByte 0xAB) ∧
  decode 0x00000000000000000102030400000040#128 = .ok (.writeInt 0x01020304) ∧
  decode 0x00000000112233445566778800000046#128 = .ok (.writeLongLe 0x1122334455667788) ∧
  decode 0x00000004000000010000000300000120#128 = .ok (.write true 4 1 3) ∧
  decode 0x00000000000000000000000300000020#128 = .ok (.write false 0 0 3) ∧
  decode 0x00000008000000000000000000000102#128 = .ok (.initArray true 8) ∧
  decode 0x0000000000000000000001AB00000030#128 = .error .aNonzero ∧
  decode 0x00000000000000000000000000000000#128 = .error .unassignedOpcode ∧
  decode 0x00000000000000000000000100000041#128 = .error .aNonzero ∧
  decode 0x00000004000000000000000000000020#128 = .error .nullWithLength ∧
  decode 0x00000000000000000000000000000015#128 = .error .unassignedOpcode ∧
  decode 0x00000000000000000000000000000211#128 = .error .reservedNonzero ∧
  decode 0x00000000000000000000000000000111#128 = .error .avNonzero ∧
  decode 0x00000000000000010000000400000060#128 = .error .bNonzero

/-! ### The step (00_scope R6, R7, 60_exceptions R204, 70_reset R230) -/

/-- R6, R7: when the next input is a word that decodes to a command, the step is that command's meaning, on the state
with the word taken and the array it names as the operand array, whose AV and L are the decoded command's (20_memory
R53); `withFetchWord` puts such an input in place. The number of the array is the model's own (log 3, 9). -/
def Obligations.StepRunsDecodedCommand : Prop :=
  (∀ (s : State) (w : CommandWord) (array : Memory) (rest : List Input) (i : Instr),
    s.inputs = .command w array :: rest → decode w = .ok i →
      step s = exec i
        { s with
          inputs := rest
          operand := { valid := fieldAv w, length := fieldL w, number := s.arrays, bytes := array }
          arrays := s.arrays + 1 }) ∧
  (∀ (s : State) (w : CommandWord) (i : Instr), decode w = .ok i →
      step (s.withFetchWord 128 w.toNat) = exec i
        { s with
          operand := { valid := fieldAv w, length := fieldL w, number := s.arrays, bytes := [] }
          arrays := s.arrays + 1 }) ∧
  (∀ (w : CommandWord) (av : Bool) (len offset count : Word),
    decode w = .ok (.write av len offset count) ∨ decode w = .ok (.readBytes av len offset count) ∨
      decode w = .ok (.initArray av len) → fieldAv w = av ∧ fieldL w = len) ∧
  (∀ (w : CommandWord) (i : Instr), decode w = .ok i → fieldAv w = false → fieldL w = 0)

/-- R204: an illegal word is answered ST_ILLEGAL, whether configured or not, and changes nothing. -/
def Obligations.StepAnswersIllegalWord : Prop :=
  ∀ (s : State) (w : CommandWord) (array : Memory) (rest : List Input) (e : DecodeError),
    s.inputs = .command w array :: rest → decode w = .error e →
      ∃ t, step s = .next t ∧ BlockKept s t ∧ t.inputs = rest ∧ t.operand = .null ∧
        t.responses =
          { status := .illegal, value := 0
            array := { valid := fieldAv w, length := fieldL w, number := s.arrays, bytes := array } } ::
            s.responses

/-- R216, R230: with nothing presented the block holds its state; a hardware reset leaves it unconfigured, takes no
other input and answers nothing. That a reset is an input of the model, between two commands, is the model's form of
it (log 8). -/
def Obligations.StepTakesHostEvents : Prop :=
  (∀ s : State, s.inputs = [] → step s = .next s) ∧
  (∀ (s : State) (rest : List Input), s.inputs = .hardwareReset :: rest →
    ∃ t, step s = .next t ∧ t.configured = false ∧ t.storage = [] ∧ t.inputs = rest ∧
      t.operand = .null ∧ t.responses = s.responses)

/-- R37, R230: after hardware reset the block is not configured, no response is pending; and the invariant holds. -/
def Obligations.ResetMeetsInvariant : Prop :=
  State.reset.configured = false ∧ State.reset.responses = [] ∧ Inv State.reset

/-- R21, R22, R23, R50: every step keeps the invariant, from every state that meets it. -/
def Obligations.StepKeepsInvariant : Prop :=
  ∀ s t : State, Inv s → step s = .next t → Inv t

/-- R205: before construction every command but the two constructions is answered ST_NOT_CONFIGURED and does nothing,
and no command is answered so otherwise. -/
def Obligations.UnconfiguredCommandsAnswered : Prop :=
  (∀ (i : Instr) (s : State), isConstruction i = false → s.configured = false →
    ∃ t, exec i s = .next t ∧ BlockKept s t ∧ AnsweredPlain s t .notConfigured 0) ∧
  (∀ (i : Instr) (s t : State) (r : Response) (rest : List Response),
    exec i s = .next t → t.responses = r :: rest → r.status = .notConfigured →
      isConstruction i = false ∧ s.configured = false)

/-! ### Observers (40_observers) -/

/-- R110. -/
def Obligations.CapacityIsObserved : Prop :=
  encode .capacity = 0x10#128 ∧
  ∀ s : State, s.configured = true →
    ∃ t, exec .capacity s = .next t ∧ BlockKept s t ∧
      AnsweredPlain s t .ok (s.capacity.setWidth 64)

/-- R111, R29: the wrapped difference of the counters. -/
def Obligations.DataLengthIsObserved : Prop :=
  encode .dataLength = 0x11#128 ∧
  ∀ s : State, s.configured = true →
    ∃ t, exec .dataLength s = .next t ∧ BlockKept s t ∧
      AnsweredPlain s t .ok ((s.writeCount - s.readCount).setWidth 64)

/-- R112: the signed free space, as a 64-bit two's-complement number. -/
def Obligations.RemainingLengthIsObserved : Prop :=
  encode .remainingLength = 0x12#128 ∧
  ∀ s : State, s.configured = true →
    ∃ t, exec .remainingLength s = .next t ∧ BlockKept s t ∧
      AnsweredPlain s t .ok
        (BitVec.ofInt 64 ((s.capacity.toNat : Int) - ((s.writeCount - s.readCount).toNat : Int)))

/-- R113, R28: the position of the next byte to be read, below `capacity`. -/
def Obligations.ReadIndexIsObserved : Prop :=
  encode .readIndex = 0x13#128 ∧
  ∀ s : State, s.configured = true →
    (Inv s → (s.readCount &&& s.mask).toNat < s.capacity.toNat) ∧
    ∃ t, exec .readIndex s = .next t ∧ BlockKept s t ∧
      AnsweredPlain s t .ok ((s.readCount &&& s.mask).setWidth 64)

/-- R114, R27: the position the next written byte goes to, below `capacity`. -/
def Obligations.WriteIndexIsObserved : Prop :=
  encode .writeIndex = 0x14#128 ∧
  ∀ s : State, s.configured = true →
    (Inv s → (s.writeCount &&& s.mask).toNat < s.capacity.toNat) ∧
    ∃ t, exec .writeIndex s = .next t ∧ BlockKept s t ∧
      AnsweredPlain s t .ok ((s.writeCount &&& s.mask).setWidth 64)

/-! ### Index arithmetic and the derived values (10_state) -/

/-- R36: masking is reduction modulo `capacity`, and an offset may be added to the counter or to the index. -/
def Obligations.IndexIsCounterModCapacity : Prop :=
  ∀ (s : State) (c : Word), Inv s → s.configured = true →
    (c &&& s.mask).toNat = c.toNat % s.capacity.toNat ∧
    ∀ k : Word, (((c &&& s.mask) + k) &&& s.mask) = ((c + k) &&& s.mask)

/-- R192: `IsPow2` is the bit test with zero left out, and picks out 1, 2, 4, …, 0x80000000. -/
def Obligations.IsPow2IsPowerOfTwo : Prop :=
  ∀ n : Word,
    (isPow2 n = true ↔ n ≠ 0 ∧ n &&& (n - 1) = 0) ∧
    (isPow2 n = true ↔ ∃ k ≤ 31, n.toNat = 2 ^ k)

/-- R30: the range of `remaining_length`, when it is negative, and that `skip_write_bytes` then fails at every count. -/
def Obligations.RemainingLengthIsSigned : Prop :=
  ∀ s : State, Inv s → s.configured = true →
    s.remainingLength = (s.capacity.toNat : Int) - ((s.writeCount - s.readCount).toNat : Int) ∧
    2 - 2 ^ 32 ≤ s.remainingLength ∧ s.remainingLength ≤ 2 ^ 31 ∧
    (s.remainingLength < 0 ↔ s.capacity.toNat < s.dataLength.toNat) ∧
    (s.capacity.toNat < s.dataLength.toNat → ∀ count, ∃ t,
      exec (.skipWriteBytes count) s = .next t ∧ BlockKept s t ∧ AnsweredPlain s t .errOverwrite 0)

/-! ### Construction (46_construction) -/

/-- R190: a power-of-two size replaces the whole block, of whose storage no byte is given; any other size is a
ConfigurationError that changes nothing. -/
def Obligations.InitSizeBuildsOrRejects : Prop :=
  ∀ (s : State) (size : Word),
    encode (.initSize size) = 0#64 ++ size ++ 0x01#32 ∧
    (isPow2 size = true → ∃ t, exec (.initSize size) s = .next t ∧
      t.configured = true ∧ t.capacity = size ∧ t.mask = size - 1 ∧
      (∀ p, Memory.read? t.storage p = none) ∧
      t.writeCount = 0 ∧ t.readCount = 0 ∧ t.markedWriteCount = 0 ∧ t.markedReadCount = 0 ∧
      AnsweredPlain s t .ok 0) ∧
    (isPow2 size = false → ∃ t, exec (.initSize size) s = .next t ∧ BlockKept s t ∧
      AnsweredPlain s t .errConfig 0)

/-- R191: a power-of-two array becomes the storage, byte for byte, with the counters at zero; a null array is a domain
fault; any other length is a ConfigurationError that changes nothing. -/
def Obligations.InitArrayLoadsOrRejects : Prop :=
  ∀ (s : State) (len : Word),
    encode (.initArray true len) = len ++ 0#64 ++ 0x102#32 ∧
    (isPow2 len = true → ∃ t, exec (.initArray true len) s = .next t ∧
      t.configured = true ∧ t.capacity = len ∧ t.mask = len - 1 ∧
      (∀ i < len.toNat, t.memRead i = s.oaRead i) ∧
      (∀ p, len.toNat ≤ p → Memory.read? t.storage p = none) ∧
      t.writeCount = 0 ∧ t.readCount = 0 ∧ t.markedWriteCount = 0 ∧ t.markedReadCount = 0 ∧
      AnsweredPlain s t .ok 0) ∧
    (isPow2 len = false → ∃ t, exec (.initArray true len) s = .next t ∧ BlockKept s t ∧
      AnsweredPlain s t .errConfig 0) ∧
    exec (.initArray false len) s = .fault .nullBacking

/-- R202: ConfigurationError is answered for a size or length that is not a power of two, by the constructions only. -/
def Obligations.ConfigurationErrorExactlyOnBadSize : Prop :=
  (∀ (s : State) (n : Word), isPow2 n = false →
    (∃ t, exec (.initSize n) s = .next t ∧ BlockKept s t ∧ AnsweredPlain s t .errConfig 0) ∧
    (∃ t, exec (.initArray true n) s = .next t ∧ BlockKept s t ∧ AnsweredPlain s t .errConfig 0)) ∧
  (∀ (i : Instr) (s t : State) (r : Response) (rest : List Response),
    exec i s = .next t → t.responses = r :: rest → r.status = .errConfig →
      ∃ n, isPow2 n = false ∧ (i = .initSize n ∨ i = .initArray true n))

/-! ### Bulk copies (41_bulk_copy, 20_memory) -/

/-- R120, R60, R62: on its domain `write` stores source byte `offset + j` at `(write_index + j) & mask`, later bytes
winning, and advances `write_count`; nothing else changes. -/
def Obligations.WriteStoresSourceBytes : Prop :=
  ∀ (s : State) (len offset count : Word), Inv s → WriteProceeds s true len offset →
    offset.toNat + count.toNat ≤ len.toNat → FitsSplit s s.writeIndex count →
      ∃ t, exec (.write true len offset count) s = .next t ∧
        WroteBytes s t count.toNat (fun j => s.oaRead (offset.toNat + j)) ∧
        t.writeCount = s.writeCount + count ∧ t.markedWriteCount = s.markedWriteCount ∧
        ControlKept s t ∧ ReadSideKept s t ∧ AnsweredPlain s t .ok 0

/-- R123, R61, R62: on its domain `read_bytes` fills destination bytes `offset + j` from `(read_index + j) & mask` and
advances `read_count`; storage and the rest of the destination are as before. -/
def Obligations.ReadBytesFillsDestination : Prop :=
  ∀ (s : State) (len offset count : Word), Inv s → ReadProceeds s true len offset count →
    offset.toNat + count.toNat ≤ len.toNat → FitsSplit s s.readIndex count →
      ∃ t array, exec (.readBytes true len offset count) s = .next t ∧
        array = { s.operand with bytes := array.bytes } ∧
        (∀ j < count.toNat, Memory.read? array.bytes (offset.toNat + j) =
          some (s.memRead (position s.readIndex s.mask j))) ∧
        (∀ a, a < offset.toNat ∨ offset.toNat + count.toNat ≤ a →
          Memory.read? array.bytes a = Memory.read? s.operand.bytes a) ∧
        t.readCount = s.readCount + count ∧ t.markedReadCount = s.markedReadCount ∧
        ControlKept s t ∧ StorageKept s t ∧ WriteSideKept s t ∧
        Answered s t .ok 0 array ∧ t.arrays = s.arrays

/-- R126: `read_bytes_new` hands back an array of its own, present and of length `count`, with the next `count` bytes, and
advances `read_count`. -/
def Obligations.ReadBytesNewFillsNewArray : Prop :=
  ∀ (s : State) (count : Word), Inv s → s.configured = true →
    count.toNat ≤ s.dataLength.toNat → FitsSplit s s.readIndex count →
      ∃ t array, exec (.readBytesNew count) s = .next t ∧
        array.valid = true ∧ array.length = count ∧
        (∀ j < count.toNat, Memory.read? array.bytes j = some (s.memRead (position s.readIndex s.mask j))) ∧
        (∀ a, count.toNat ≤ a → Memory.read? array.bytes a = none) ∧
        t.readCount = s.readCount + count ∧ t.markedReadCount = s.markedReadCount ∧
        ControlKept s t ∧ StorageKept s t ∧ WriteSideKept s t ∧ Answered s t .ok 0 array

/-- R127, 93 U5: on too little data `read_bytes_new` changes nothing and hands back a present array of length `count`,
with a byte at every index below `count`, at no other, and none of them given by anybody. That an ungiven byte is a free
value of this array is the model's choice (log 10). -/
def Obligations.ReadBytesNewShortHandsBackArbitraryBytes : Prop :=
  ∀ (s : State) (count : Word), s.configured = true → s.dataLength.toNat < count.toNat →
    ∃ t array, exec (.readBytesNew count) s = .next t ∧
      array.valid = true ∧ array.length = count ∧ array.bytes = [] ∧
      (∀ j < count.toNat, ∃ b, array.byte? j = some b) ∧
      (∀ j, count.toNat ≤ j → array.byte? j = none) ∧
      BlockKept s t ∧ Answered s t noopStatus 0 array

/-- R203: the causes of a silent no-op, complete; it changes nothing, and SILENT_NOOP decides only its status. -/
def Obligations.SilentNoopChangesNothing : Prop :=
  (∀ (i : Instr) (s : State), s.configured = true → NoopCase i s →
    ∃ t array, exec i s = .next t ∧ BlockKept s t ∧ Answered s t noopStatus 0 array ∧
      (instrOp i ≠ .readBytesNew → array = s.operand)) ∧
  (∀ (i : Instr) (s t : State) (r : Response) (rest : List Response), ¬ NoopCase i s →
    exec i s = .next t → t.responses = r :: rest → r.status ≠ .noop) ∧
  noopStatus = if Config.silentNoop then .ok else .noop

/-- R206: the domain faults are exactly the table's cases; the response is ST_FAULT_DOMAIN with VALUE 0 and no reason. -/
def Obligations.DomainFaultsExactlyTheFour : Prop :=
  (∀ (i : Instr) (s : State) (r : Fault), Inv s → (exec i s = .fault r ↔ FaultCase r i s)) ∧
  ∀ r : Fault, responseWord (faultResponse r) = 0x060000000000000000#72

/-- R125: with the buffer empty, bytes written are read back byte for byte, also across the end of storage, into a new
array and into a destination. -/
def Obligations.BulkRoundTrip : Prop :=
  ∀ (s : State) (len offset count : Word), Inv s → WriteProceeds s true len offset →
    offset.toNat + count.toNat ≤ len.toNat → s.dataLength = 0 →
    (count.toNat : Int) ≤ s.remainingLength →
      ∃ t, exec (.write true len offset count) s = .next t ∧
        (∃ u r rest, exec (.readBytesNew count) t = .next u ∧ u.responses = r :: rest ∧
          r.status = .ok ∧ u.dataLength = 0 ∧
          r.array.valid = true ∧ r.array.length = count ∧
          ∀ j < count.toNat, r.array.byte? j = some (s.oaRead (offset.toNat + j))) ∧
        (∀ (destination : OperandArray) (offset' : Word), destination.valid = true →
          offset'.toNat + count.toNat ≤ destination.length.toNat →
            ∃ u r rest,
              exec (.readBytes true destination.length offset' count) { t with operand := destination } = .next u ∧
              u.responses = r :: rest ∧ r.status = .ok ∧ u.dataLength = 0 ∧
              ∀ j < count.toNat, r.array.byte? (offset'.toNat + j) = some (s.oaRead (offset.toNat + j)))

/-! ### Single bytes (42_single_byte) -/

/-- R140: the byte goes to `write_index`, whatever lies there, and `write_count` advances by 1. -/
def Obligations.WriteByteStoresAtWriteIndex : Prop :=
  ∀ (s : State) (value : Byte), s.configured = true →
    ∃ t, exec (.writeByte value) s = .next t ∧
      t.memRead (s.writeCount &&& s.mask).toNat = value ∧
      (∀ p, p ≠ (s.writeCount &&& s.mask).toNat → t.memRead p = s.memRead p) ∧
      t.writeCount = s.writeCount + 1 ∧ t.markedWriteCount = s.markedWriteCount ∧
      ControlKept s t ∧ ReadSideKept s t ∧ AnsweredPlain s t .ok 0

/-- R141: the byte at `read_index`, zero-extended; `read_count` advances by 1 and passes `write_count` when the buffer
is empty. -/
def Obligations.ReadByteReturnsByteAtReadIndex : Prop :=
  encode .readByte = 0x31#128 ∧
  ∀ s : State, s.configured = true →
    ∃ t, exec .readByte s = .next t ∧
      t.readCount = s.readCount + 1 ∧ t.markedReadCount = s.markedReadCount ∧
      (s.dataLength = 0 → t.dataLength = 0xFFFFFFFF) ∧
      ControlKept s t ∧ StorageKept s t ∧ WriteSideKept s t ∧
      AnsweredPlain s t .ok ((s.memRead (s.readCount &&& s.mask).toNat).setWidth 64)

/-! ### Codecs (43_int_codec) -/

/-- R151: big-endian, 4 bytes. -/
def Obligations.WriteIntStoresBigEndian : Prop :=
  ∀ (s : State) (value : Word), s.configured = true →
    encode (.writeInt value) = 0#64 ++ value ++ 0x40#32 ∧
    ∃ t, exec (.writeInt value) s = .next t ∧
      WroteBytes s t 4 (fun k => value.extractLsb' (24 - 8 * k) 8) ∧
      t.writeCount = s.writeCount + 4 ∧ t.markedWriteCount = s.markedWriteCount ∧
      ControlKept s t ∧ ReadSideKept s t ∧ AnsweredPlain s t .ok 0

/-- R153: little-endian, 4 bytes. -/
def Obligations.WriteIntLeStoresLittleEndian : Prop :=
  ∀ (s : State) (value : Word), s.configured = true →
    encode (.writeIntLe value) = 0#64 ++ value ++ 0x42#32 ∧
    ∃ t, exec (.writeIntLe value) s = .next t ∧
      WroteBytes s t 4 (fun k => value.extractLsb' (8 * k) 8) ∧
      t.writeCount = s.writeCount + 4 ∧ t.markedWriteCount = s.markedWriteCount ∧
      ControlKept s t ∧ ReadSideKept s t ∧ AnsweredPlain s t .ok 0

/-- R155: big-endian, 8 bytes. -/
def Obligations.WriteLongStoresBigEndian : Prop :=
  ∀ (s : State) (value : Long), s.configured = true →
    encode (.writeLong value) = 0#32 ++ value ++ 0x44#32 ∧
    ∃ t, exec (.writeLong value) s = .next t ∧
      WroteBytes s t 8 (fun k => value.extractLsb' (56 - 8 * k) 8) ∧
      t.writeCount = s.writeCount + 8 ∧ t.markedWriteCount = s.markedWriteCount ∧
      ControlKept s t ∧ ReadSideKept s t ∧ AnsweredPlain s t .ok 0

/-- R157: little-endian, 8 bytes. -/
def Obligations.WriteLongLeStoresLittleEndian : Prop :=
  ∀ (s : State) (value : Long), s.configured = true →
    encode (.writeLongLe value) = 0#32 ++ value ++ 0x46#32 ∧
    ∃ t, exec (.writeLongLe value) s = .next t ∧
      WroteBytes s t 8 (fun k => value.extractLsb' (8 * k) 8) ∧
      t.writeCount = s.writeCount + 8 ∧ t.markedWriteCount = s.markedWriteCount ∧
      ControlKept s t ∧ ReadSideKept s t ∧ AnsweredPlain s t .ok 0

/-- R152: the byte at the lowest offset is the most significant. -/
def Obligations.ReadIntJoinsBigEndian : Prop :=
  encode .readInt = 0x41#128 ∧
  ∀ s : State, s.configured = true →
    let b := fun k => s.memRead (position s.readIndex s.mask k)
    ∃ t, exec .readInt s = .next t ∧
      t.readCount = s.readCount + 4 ∧ t.markedReadCount = s.markedReadCount ∧
      ControlKept s t ∧ StorageKept s t ∧ WriteSideKept s t ∧
      AnsweredPlain s t .ok ((b 0 ++ b 1 ++ b 2 ++ b 3).setWidth 64)

/-- R154: the byte at the lowest offset is the least significant. -/
def Obligations.ReadIntLeJoinsLittleEndian : Prop :=
  encode .readIntLe = 0x43#128 ∧
  ∀ s : State, s.configured = true →
    let b := fun k => s.memRead (position s.readIndex s.mask k)
    ∃ t, exec .readIntLe s = .next t ∧
      t.readCount = s.readCount + 4 ∧ t.markedReadCount = s.markedReadCount ∧
      ControlKept s t ∧ StorageKept s t ∧ WriteSideKept s t ∧
      AnsweredPlain s t .ok ((b 3 ++ b 2 ++ b 1 ++ b 0).setWidth 64)

/-- R156. -/
def Obligations.ReadLongJoinsBigEndian : Prop :=
  encode .readLong = 0x45#128 ∧
  ∀ s : State, s.configured = true →
    let b := fun k => s.memRead (position s.readIndex s.mask k)
    ∃ t, exec .readLong s = .next t ∧
      t.readCount = s.readCount + 8 ∧ t.markedReadCount = s.markedReadCount ∧
      ControlKept s t ∧ StorageKept s t ∧ WriteSideKept s t ∧
      AnsweredPlain s t .ok (b 0 ++ b 1 ++ b 2 ++ b 3 ++ b 4 ++ b 5 ++ b 6 ++ b 7)

/-- R158. -/
def Obligations.ReadLongLeJoinsLittleEndian : Prop :=
  encode .readLongLe = 0x47#128 ∧
  ∀ s : State, s.configured = true →
    let b := fun k => s.memRead (position s.readIndex s.mask k)
    ∃ t, exec .readLongLe s = .next t ∧
      t.readCount = s.readCount + 8 ∧ t.markedReadCount = s.markedReadCount ∧
      ControlKept s t ∧ StorageKept s t ∧ WriteSideKept s t ∧
      AnsweredPlain s t .ok (b 7 ++ b 6 ++ b 5 ++ b 4 ++ b 3 ++ b 2 ++ b 1 ++ b 0)

/-- R160, the first two laws: with the buffer empty and wide enough, a value written is read back in the same order, and
byte-reversed in the other. -/
def Obligations.CodecsReadBack : Prop :=
  ∀ s : State, Inv s → s.configured = true → s.dataLength = 0 →
    (4 ≤ s.capacity.toNat → ∀ v : Word,
      ReadsBack (.writeInt v) .readInt s (v.setWidth 64) ∧
      ReadsBack (.writeIntLe v) .readIntLe s (v.setWidth 64) ∧
      ReadsBack (.writeInt v) .readIntLe s ((rev4 v).setWidth 64) ∧
      ReadsBack (.writeIntLe v) .readInt s ((rev4 v).setWidth 64)) ∧
    (8 ≤ s.capacity.toNat → ∀ v : Long,
      ReadsBack (.writeLong v) .readLong s v ∧
      ReadsBack (.writeLongLe v) .readLongLe s v ∧
      ReadsBack (.writeLong v) .readLongLe s (rev8 v) ∧
      ReadsBack (.writeLongLe v) .readLong s (rev8 v))

/-- R160, the last law: `write_int` does to the block what four `write_byte`s do, at every capacity, and what a bulk
`write` of the four bytes does at a capacity of 4 or more. -/
def Obligations.WriteIntIsFourWriteBytes : Prop :=
  ∀ (s : State) (v : Word), Inv s → s.configured = true →
    let b := fun k => v.extractLsb' (24 - 8 * k) 8
    SameEffect (exec (.writeInt v) s)
      (execAll [.writeByte (b 0), .writeByte (b 1), .writeByte (b 2), .writeByte (b 3)] s) ∧
    (4 ≤ s.capacity.toNat →
      SameEffect (exec (.writeInt v) s)
        (exec (.write true 4 0 4)
          { s with
            operand :=
              { valid := true, length := 4, number := 0
                bytes := [(0, b 0), (1, b 1), (2, b 2), (3, b 3)] } }))

/-- R160, the third and fourth laws: a long is two ints, high half first big-endian and low half first little-endian,
and a big-endian int is the little-endian int of the reversed bytes. -/
def Obligations.LongWritesAreTwoIntWrites : Prop :=
  ∀ s : State, Inv s → s.configured = true →
    (∀ v : Long,
      SameEffect (exec (.writeLong v) s)
        (execAll [.writeInt (v.extractLsb' 32 32), .writeInt (v.extractLsb' 0 32)] s) ∧
      SameEffect (exec (.writeLongLe v) s)
        (execAll [.writeIntLe (v.extractLsb' 0 32), .writeIntLe (v.extractLsb' 32 32)] s)) ∧
    ∀ v : Word, SameEffect (exec (.writeInt v) s) (exec (.writeIntLe (rev4 v)) s)

/-! ### Mark and reset (44_mark_reset) -/

/-- R170: the whole 32-bit counter is marked, nothing else changes. -/
def Obligations.MarkWriteIndexSnapshots : Prop :=
  encode .markWriteIndex = 0x50#128 ∧
  ∀ s : State, s.configured = true →
    ∃ t, exec .markWriteIndex s = .next t ∧
      t.markedWriteCount = s.writeCount ∧ t.writeCount = s.writeCount ∧ t.dataLength = s.dataLength ∧
      ControlKept s t ∧ StorageKept s t ∧ ReadSideKept s t ∧ AnsweredPlain s t .ok 0

/-- R171: the counter is rewound to its mark, which is not consumed; storage is not restored. -/
def Obligations.ResetWriteIndexRewinds : Prop :=
  encode .resetWriteIndex = 0x51#128 ∧
  ∀ s : State, s.configured = true →
    ∃ t, exec .resetWriteIndex s = .next t ∧
      t.writeCount = s.markedWriteCount ∧ t.markedWriteCount = s.markedWriteCount ∧
      ControlKept s t ∧ StorageKept s t ∧ ReadSideKept s t ∧ AnsweredPlain s t .ok 0

/-- R172. -/
def Obligations.MarkReadIndexSnapshots : Prop :=
  encode .markReadIndex = 0x52#128 ∧
  ∀ s : State, s.configured = true →
    ∃ t, exec .markReadIndex s = .next t ∧
      t.markedReadCount = s.readCount ∧ t.readCount = s.readCount ∧
      ControlKept s t ∧ StorageKept s t ∧ WriteSideKept s t ∧ AnsweredPlain s t .ok 0

/-- R173: `data_length` grows by the bytes read since the mark. -/
def Obligations.ResetReadIndexRewinds : Prop :=
  encode .resetReadIndex = 0x53#128 ∧
  ∀ s : State, s.configured = true →
    ∃ t, exec .resetReadIndex s = .next t ∧
      t.readCount = s.markedReadCount ∧ t.markedReadCount = s.markedReadCount ∧
      t.dataLength = s.dataLength + (s.readCount - s.markedReadCount) ∧
      ControlKept s t ∧ StorageKept s t ∧ WriteSideKept s t ∧ AnsweredPlain s t .ok 0

/-- R171, the property of the source's §8: mark, then any writes, then reset leaves `data_length` as it was. -/
def Obligations.WriteRollbackIsExact : Prop :=
  ∀ (s u : State) (is : List Instr), s.configured = true → (∀ i ∈ is, isWriter i = true) →
    execAll (.markWriteIndex :: is) s = .next u →
      ∃ v, exec .resetWriteIndex u = .next v ∧ v.dataLength = s.dataLength ∧
        v.writeCount = s.writeCount ∧ v.readCount = s.readCount

/-! ### Skip (45_skip) -/

/-- R180: up to the free space, `write_count` advances and storage is as it was. -/
def Obligations.SkipWriteClaimsFreeSpace : Prop :=
  ∀ (s : State) (count : Word), s.configured = true → (count.toNat : Int) ≤ s.remainingLength →
    ∃ t, exec (.skipWriteBytes count) s = .next t ∧
      t.writeCount = s.writeCount + count ∧ t.markedWriteCount = s.markedWriteCount ∧
      t.dataLength.toNat = s.dataLength.toNat + count.toNat ∧ Bounded t ∧
      ControlKept s t ∧ StorageKept s t ∧ ReadSideKept s t ∧ AnsweredPlain s t .ok 0

/-- R201: OverwriteError is answered exactly when `skip_write_bytes` asks for more than `remaining_length`, by no other
command, and changes nothing. -/
def Obligations.OverwriteErrorExactlyOnOverclaim : Prop :=
  (∀ (s : State) (count : Word), s.configured = true → s.remainingLength < (count.toNat : Int) →
    ∃ t, exec (.skipWriteBytes count) s = .next t ∧ BlockKept s t ∧ AnsweredPlain s t .errOverwrite 0) ∧
  (∀ (i : Instr) (s t : State) (r : Response) (rest : List Response),
    exec i s = .next t → t.responses = r :: rest → r.status = .errOverwrite →
      ∃ count, i = .skipWriteBytes count ∧ s.remainingLength < (count.toNat : Int))

/-- R181: `read_count` advances by any count, unchecked; storage is as it was. -/
def Obligations.SkipReadDiscards : Prop :=
  ∀ (s : State) (count : Word), s.configured = true →
    ∃ t, exec (.skipReadBytes count) s = .next t ∧
      t.readCount = s.readCount + count ∧ t.markedReadCount = s.markedReadCount ∧
      (count.toNat ≤ s.dataLength.toNat → t.dataLength.toNat = s.dataLength.toNat - count.toNat) ∧
      (s.dataLength.toNat < count.toNat →
        t.dataLength.toNat = 2 ^ 32 - (count.toNat - s.dataLength.toNat)) ∧
      ControlKept s t ∧ StorageKept s t ∧ WriteSideKept s t ∧ AnsweredPlain s t .ok 0

/-! ### The whole machine -/

/-- R21, R22, R26, R233: a step changes `capacity`, `mask` or `configured` only where it takes a construction command or
a hardware reset, and only the reset clears `configured`. -/
def Obligations.ControlWrittenOnlyByConstruction : Prop :=
  ∀ s t : State, step s = .next t →
    (t.capacity ≠ s.capacity ∨ t.mask ≠ s.mask ∨ t.configured ≠ s.configured →
      (∃ rest, s.inputs = .hardwareReset :: rest) ∨
      ∃ w array rest i, s.inputs = .command w array :: rest ∧ decode w = .ok i ∧
        isConstruction i = true) ∧
    (s.configured = true → t.configured = false → ∃ rest, s.inputs = .hardwareReset :: rest)

/-- R24, R174: which commands write which counter and which mark. -/
def Obligations.CountersWrittenOnlyByTheirCommands : Prop :=
  ∀ (i : Instr) (s t : State), exec i s = .next t →
    (t.writeCount ≠ s.writeCount → isWriter i = true ∨ isConstruction i = true ∨
      instrOp i = .skipWriteBytes ∨ i = .resetWriteIndex) ∧
    (t.readCount ≠ s.readCount → isReader i = true ∨ isConstruction i = true ∨
      instrOp i = .skipReadBytes ∨ i = .resetReadIndex) ∧
    (t.markedWriteCount ≠ s.markedWriteCount → i = .markWriteIndex ∨ isConstruction i = true) ∧
    (t.markedReadCount ≠ s.markedReadCount → i = .markReadIndex ∨ isConstruction i = true)

/-- R23: storage is written only by the write family and construction; no read and no other command changes a byte. -/
def Obligations.StorageWrittenOnlyByWriters : Prop :=
  ∀ (i : Instr) (s t : State) (p : Nat), exec i s = .next t → t.memRead p ≠ s.memRead p →
    isWriter i = true ∨ isConstruction i = true

/-- R9, R84, R200, R209: a command that is answered is answered once, and where the status is not ST_OK the VALUE is 0
and the block is as it was. -/
def Obligations.EveryCommandAnswersOnce : Prop :=
  ∀ (i : Instr) (s t : State), exec i s = .next t →
    ∃ r, t.responses = r :: s.responses ∧ t.inputs = s.inputs ∧ t.operand = .null ∧
      (r.status ≠ .ok → r.value = 0 ∧ BlockKept s t)

/-- R207: which command can end in which status. -/
def Obligations.StatusesPerCommand : Prop :=
  ∀ (i : Instr) (s t : State) (r : Response) (rest : List Response),
    exec i s = .next t → t.responses = r :: rest → r.status ∈ mayAnswer i

/-- R33: `data_length ≤ capacity` holds after a construction that succeeds, and a command keeps it when the host does
its duty. It is no rule of the block: without the duty it can break. -/
def Obligations.BoundKeptUnderHostDuty : Prop :=
  (∀ (i : Instr) (s t : State), Bounded s → hostDuty i s → exec i s = .next t → Bounded t) ∧
  (∀ (i : Instr) (s t : State) (r : Response) (rest : List Response), isConstruction i = true →
    exec i s = .next t → t.responses = r :: rest → r.status = .ok → Bounded t)

/-- R31, R38: the absolute counters cannot be observed: with a multiple of `capacity` added to all four counters, every
command but construction does and answers the same, and the counters stay that far apart. -/
def Obligations.CounterOffsetIsInvisible : Prop :=
  ∀ (i : Instr) (s : State) (d : Word), Inv s → isConstruction i = false →
    d &&& s.mask = 0 → exec i (s.offset d) = offsetOutcome d (exec i s)
end

