-- ==== Sys2Proof/Laws/State.lean ====
section
/-! SUPPORT. Each update of the state, field by field: one lemma per field and update, so that no proof unfolds a record update. -/

namespace Sys2Proof.Machine

/-! ### The bytes of an operand array -/

/-- A listed byte is the array's byte. -/
theorem OperandArray.byte_of_read? {a : OperandArray} {i : Nat} {b : Byte} (h : Memory.read? a.bytes i = some b) :
    a.byte i = b := by
  rw [OperandArray.byte, h, Option.getD_some]

/-- An index of a present array below its length has a byte, listed or free (20_memory R53). -/
theorem OperandArray.byte?_of_lt {a : OperandArray} {i : Nat} (hv : a.valid = true) (h : i < a.length.toNat) :
    a.byte? i = some (a.byte i) := if_pos ⟨hv, h⟩

/-- An index at or above the length has none. -/
theorem OperandArray.byte?_of_le {a : OperandArray} {i : Nat} (h : a.length.toNat ≤ i) : a.byte? i = none :=
  if_neg fun hc => Nat.not_lt.2 h hc.2

/-- A null array has no byte. -/
@[simp] theorem OperandArray.byte?_null (i : Nat) : OperandArray.null.byte? i = none := rfl

variable (s : State)

/-! ### `respond` -/

@[simp] theorem State.respond_configured (st : Status) (v : Long) : (s.respond st v).configured = s.configured := rfl
@[simp] theorem State.respond_capacity (st : Status) (v : Long) : (s.respond st v).capacity = s.capacity := rfl
@[simp] theorem State.respond_mask (st : Status) (v : Long) : (s.respond st v).mask = s.mask := rfl
@[simp] theorem State.respond_storage (st : Status) (v : Long) : (s.respond st v).storage = s.storage := rfl
@[simp] theorem State.respond_writeCount (st : Status) (v : Long) : (s.respond st v).writeCount = s.writeCount := rfl
@[simp] theorem State.respond_readCount (st : Status) (v : Long) : (s.respond st v).readCount = s.readCount := rfl
@[simp] theorem State.respond_markedWriteCount (st : Status) (v : Long) : (s.respond st v).markedWriteCount = s.markedWriteCount := rfl
@[simp] theorem State.respond_markedReadCount (st : Status) (v : Long) : (s.respond st v).markedReadCount = s.markedReadCount := rfl
@[simp] theorem State.respond_constructions (st : Status) (v : Long) : (s.respond st v).constructions = s.constructions := rfl
@[simp] theorem State.respond_arrays (st : Status) (v : Long) : (s.respond st v).arrays = s.arrays := rfl
@[simp] theorem State.respond_operand (st : Status) (v : Long) : (s.respond st v).operand = .null := rfl
@[simp] theorem State.respond_inputs (st : Status) (v : Long) : (s.respond st v).inputs = s.inputs := rfl
@[simp] theorem State.respond_responses (st : Status) (v : Long) : (s.respond st v).responses = { status := st, value := v, array := s.operand } :: s.responses := rfl

/-! ### `advanceWrite` -/

@[simp] theorem State.advanceWrite_configured (n : Word) : (s.advanceWrite n).configured = s.configured := rfl
@[simp] theorem State.advanceWrite_capacity (n : Word) : (s.advanceWrite n).capacity = s.capacity := rfl
@[simp] theorem State.advanceWrite_mask (n : Word) : (s.advanceWrite n).mask = s.mask := rfl
@[simp] theorem State.advanceWrite_storage (n : Word) : (s.advanceWrite n).storage = s.storage := rfl
@[simp] theorem State.advanceWrite_writeCount (n : Word) : (s.advanceWrite n).writeCount = s.writeCount + n := rfl
@[simp] theorem State.advanceWrite_readCount (n : Word) : (s.advanceWrite n).readCount = s.readCount := rfl
@[simp] theorem State.advanceWrite_markedWriteCount (n : Word) : (s.advanceWrite n).markedWriteCount = s.markedWriteCount := rfl
@[simp] theorem State.advanceWrite_markedReadCount (n : Word) : (s.advanceWrite n).markedReadCount = s.markedReadCount := rfl
@[simp] theorem State.advanceWrite_constructions (n : Word) : (s.advanceWrite n).constructions = s.constructions := rfl
@[simp] theorem State.advanceWrite_arrays (n : Word) : (s.advanceWrite n).arrays = s.arrays := rfl
@[simp] theorem State.advanceWrite_operand (n : Word) : (s.advanceWrite n).operand = s.operand := rfl
@[simp] theorem State.advanceWrite_inputs (n : Word) : (s.advanceWrite n).inputs = s.inputs := rfl
@[simp] theorem State.advanceWrite_responses (n : Word) : (s.advanceWrite n).responses = s.responses := rfl

/-! ### `advanceRead` -/

@[simp] theorem State.advanceRead_configured (n : Word) : (s.advanceRead n).configured = s.configured := rfl
@[simp] theorem State.advanceRead_capacity (n : Word) : (s.advanceRead n).capacity = s.capacity := rfl
@[simp] theorem State.advanceRead_mask (n : Word) : (s.advanceRead n).mask = s.mask := rfl
@[simp] theorem State.advanceRead_storage (n : Word) : (s.advanceRead n).storage = s.storage := rfl
@[simp] theorem State.advanceRead_writeCount (n : Word) : (s.advanceRead n).writeCount = s.writeCount := rfl
@[simp] theorem State.advanceRead_readCount (n : Word) : (s.advanceRead n).readCount = s.readCount + n := rfl
@[simp] theorem State.advanceRead_markedWriteCount (n : Word) : (s.advanceRead n).markedWriteCount = s.markedWriteCount := rfl
@[simp] theorem State.advanceRead_markedReadCount (n : Word) : (s.advanceRead n).markedReadCount = s.markedReadCount := rfl
@[simp] theorem State.advanceRead_constructions (n : Word) : (s.advanceRead n).constructions = s.constructions := rfl
@[simp] theorem State.advanceRead_arrays (n : Word) : (s.advanceRead n).arrays = s.arrays := rfl
@[simp] theorem State.advanceRead_operand (n : Word) : (s.advanceRead n).operand = s.operand := rfl
@[simp] theorem State.advanceRead_inputs (n : Word) : (s.advanceRead n).inputs = s.inputs := rfl
@[simp] theorem State.advanceRead_responses (n : Word) : (s.advanceRead n).responses = s.responses := rfl

/-! ### `construct` -/

@[simp] theorem State.construct_configured (n : Word) (m : Memory) : (s.construct n m).configured = true := rfl
@[simp] theorem State.construct_capacity (n : Word) (m : Memory) : (s.construct n m).capacity = n := rfl
@[simp] theorem State.construct_mask (n : Word) (m : Memory) : (s.construct n m).mask = n - 1 := rfl
@[simp] theorem State.construct_storage (n : Word) (m : Memory) : (s.construct n m).storage = m := rfl
@[simp] theorem State.construct_writeCount (n : Word) (m : Memory) : (s.construct n m).writeCount = 0 := rfl
@[simp] theorem State.construct_readCount (n : Word) (m : Memory) : (s.construct n m).readCount = 0 := rfl
@[simp] theorem State.construct_markedWriteCount (n : Word) (m : Memory) : (s.construct n m).markedWriteCount = 0 := rfl
@[simp] theorem State.construct_markedReadCount (n : Word) (m : Memory) : (s.construct n m).markedReadCount = 0 := rfl
@[simp] theorem State.construct_constructions (n : Word) (m : Memory) : (s.construct n m).constructions = s.constructions + 1 := rfl
@[simp] theorem State.construct_arrays (n : Word) (m : Memory) : (s.construct n m).arrays = s.arrays := rfl
@[simp] theorem State.construct_operand (n : Word) (m : Memory) : (s.construct n m).operand = s.operand := rfl
@[simp] theorem State.construct_inputs (n : Word) (m : Memory) : (s.construct n m).inputs = s.inputs := rfl
@[simp] theorem State.construct_responses (n : Word) (m : Memory) : (s.construct n m).responses = s.responses := rfl

/-! ### `freshArray` -/

@[simp] theorem State.freshArray_configured (n : Word) : (s.freshArray n).configured = s.configured := rfl
@[simp] theorem State.freshArray_capacity (n : Word) : (s.freshArray n).capacity = s.capacity := rfl
@[simp] theorem State.freshArray_mask (n : Word) : (s.freshArray n).mask = s.mask := rfl
@[simp] theorem State.freshArray_storage (n : Word) : (s.freshArray n).storage = s.storage := rfl
@[simp] theorem State.freshArray_writeCount (n : Word) : (s.freshArray n).writeCount = s.writeCount := rfl
@[simp] theorem State.freshArray_readCount (n : Word) : (s.freshArray n).readCount = s.readCount := rfl
@[simp] theorem State.freshArray_markedWriteCount (n : Word) : (s.freshArray n).markedWriteCount = s.markedWriteCount := rfl
@[simp] theorem State.freshArray_markedReadCount (n : Word) : (s.freshArray n).markedReadCount = s.markedReadCount := rfl
@[simp] theorem State.freshArray_constructions (n : Word) : (s.freshArray n).constructions = s.constructions := rfl
@[simp] theorem State.freshArray_arrays (n : Word) : (s.freshArray n).arrays = s.arrays + 1 := rfl
@[simp] theorem State.freshArray_operand (n : Word) : (s.freshArray n).operand =
    { valid := true, length := n, number := s.arrays, bytes := [] } := rfl
@[simp] theorem State.freshArray_inputs (n : Word) : (s.freshArray n).inputs = s.inputs := rfl
@[simp] theorem State.freshArray_responses (n : Word) : (s.freshArray n).responses = s.responses := rfl

/-! ### `fillOperand` -/

@[simp] theorem State.fillOperand_configured (m : Memory) : (s.fillOperand m).configured = s.configured := rfl
@[simp] theorem State.fillOperand_capacity (m : Memory) : (s.fillOperand m).capacity = s.capacity := rfl
@[simp] theorem State.fillOperand_mask (m : Memory) : (s.fillOperand m).mask = s.mask := rfl
@[simp] theorem State.fillOperand_storage (m : Memory) : (s.fillOperand m).storage = s.storage := rfl
@[simp] theorem State.fillOperand_writeCount (m : Memory) : (s.fillOperand m).writeCount = s.writeCount := rfl
@[simp] theorem State.fillOperand_readCount (m : Memory) : (s.fillOperand m).readCount = s.readCount := rfl
@[simp] theorem State.fillOperand_markedWriteCount (m : Memory) : (s.fillOperand m).markedWriteCount = s.markedWriteCount := rfl
@[simp] theorem State.fillOperand_markedReadCount (m : Memory) : (s.fillOperand m).markedReadCount = s.markedReadCount := rfl
@[simp] theorem State.fillOperand_constructions (m : Memory) : (s.fillOperand m).constructions = s.constructions := rfl
@[simp] theorem State.fillOperand_arrays (m : Memory) : (s.fillOperand m).arrays = s.arrays := rfl
@[simp] theorem State.fillOperand_inputs (m : Memory) : (s.fillOperand m).inputs = s.inputs := rfl
@[simp] theorem State.fillOperand_responses (m : Memory) : (s.fillOperand m).responses = s.responses := rfl
@[simp] theorem State.fillOperand_operand (m : Memory) : (s.fillOperand m).operand = { s.operand with bytes := m } := rfl

/-! ### `take` -/

@[simp] theorem State.take_configured (w : CommandWord) (m : Memory) (r : List Input) : (s.take w m r).configured = s.configured := rfl
@[simp] theorem State.take_capacity (w : CommandWord) (m : Memory) (r : List Input) : (s.take w m r).capacity = s.capacity := rfl
@[simp] theorem State.take_mask (w : CommandWord) (m : Memory) (r : List Input) : (s.take w m r).mask = s.mask := rfl
@[simp] theorem State.take_storage (w : CommandWord) (m : Memory) (r : List Input) : (s.take w m r).storage = s.storage := rfl
@[simp] theorem State.take_writeCount (w : CommandWord) (m : Memory) (r : List Input) : (s.take w m r).writeCount = s.writeCount := rfl
@[simp] theorem State.take_readCount (w : CommandWord) (m : Memory) (r : List Input) : (s.take w m r).readCount = s.readCount := rfl
@[simp] theorem State.take_markedWriteCount (w : CommandWord) (m : Memory) (r : List Input) : (s.take w m r).markedWriteCount = s.markedWriteCount := rfl
@[simp] theorem State.take_markedReadCount (w : CommandWord) (m : Memory) (r : List Input) : (s.take w m r).markedReadCount = s.markedReadCount := rfl
@[simp] theorem State.take_constructions (w : CommandWord) (m : Memory) (r : List Input) : (s.take w m r).constructions = s.constructions := rfl
@[simp] theorem State.take_arrays (w : CommandWord) (m : Memory) (r : List Input) : (s.take w m r).arrays = s.arrays + 1 := rfl
@[simp] theorem State.take_operand (w : CommandWord) (m : Memory) (r : List Input) : (s.take w m r).operand =
    { valid := fieldAv w, length := fieldL w, number := s.arrays, bytes := m } := rfl
@[simp] theorem State.take_inputs (w : CommandWord) (m : Memory) (r : List Input) : (s.take w m r).inputs = r := rfl
@[simp] theorem State.take_responses (w : CommandWord) (m : Memory) (r : List Input) : (s.take w m r).responses = s.responses := rfl

/-! ### `hardwareReset` -/

@[simp] theorem State.hardwareReset_configured (r : List Input) : (s.hardwareReset r).configured = false := rfl
@[simp] theorem State.hardwareReset_capacity (r : List Input) : (s.hardwareReset r).capacity = 0 := rfl
@[simp] theorem State.hardwareReset_mask (r : List Input) : (s.hardwareReset r).mask = 0 := rfl
@[simp] theorem State.hardwareReset_storage (r : List Input) : (s.hardwareReset r).storage = [] := rfl
@[simp] theorem State.hardwareReset_writeCount (r : List Input) : (s.hardwareReset r).writeCount = 0 := rfl
@[simp] theorem State.hardwareReset_readCount (r : List Input) : (s.hardwareReset r).readCount = 0 := rfl
@[simp] theorem State.hardwareReset_markedWriteCount (r : List Input) : (s.hardwareReset r).markedWriteCount = 0 := rfl
@[simp] theorem State.hardwareReset_markedReadCount (r : List Input) : (s.hardwareReset r).markedReadCount = 0 := rfl
@[simp] theorem State.hardwareReset_constructions (r : List Input) : (s.hardwareReset r).constructions = s.constructions + 1 := rfl
@[simp] theorem State.hardwareReset_arrays (r : List Input) : (s.hardwareReset r).arrays = s.arrays := rfl
@[simp] theorem State.hardwareReset_operand (r : List Input) : (s.hardwareReset r).operand = .null := rfl
@[simp] theorem State.hardwareReset_inputs (r : List Input) : (s.hardwareReset r).inputs = r := rfl
@[simp] theorem State.hardwareReset_responses (r : List Input) : (s.hardwareReset r).responses = s.responses := rfl

/-! ### `presentWord` -/

@[simp] theorem State.presentWord_configured (w : CommandWord) : (s.presentWord w).configured = s.configured := rfl
@[simp] theorem State.presentWord_capacity (w : CommandWord) : (s.presentWord w).capacity = s.capacity := rfl
@[simp] theorem State.presentWord_mask (w : CommandWord) : (s.presentWord w).mask = s.mask := rfl
@[simp] theorem State.presentWord_storage (w : CommandWord) : (s.presentWord w).storage = s.storage := rfl
@[simp] theorem State.presentWord_writeCount (w : CommandWord) : (s.presentWord w).writeCount = s.writeCount := rfl
@[simp] theorem State.presentWord_readCount (w : CommandWord) : (s.presentWord w).readCount = s.readCount := rfl
@[simp] theorem State.presentWord_markedWriteCount (w : CommandWord) : (s.presentWord w).markedWriteCount = s.markedWriteCount := rfl
@[simp] theorem State.presentWord_markedReadCount (w : CommandWord) : (s.presentWord w).markedReadCount = s.markedReadCount := rfl
@[simp] theorem State.presentWord_constructions (w : CommandWord) : (s.presentWord w).constructions = s.constructions := rfl
@[simp] theorem State.presentWord_arrays (w : CommandWord) : (s.presentWord w).arrays = s.arrays := rfl
@[simp] theorem State.presentWord_operand (w : CommandWord) : (s.presentWord w).operand = s.operand := rfl
@[simp] theorem State.presentWord_inputs (w : CommandWord) : (s.presentWord w).inputs = .command w [] :: s.inputs := rfl
@[simp] theorem State.presentWord_responses (w : CommandWord) : (s.presentWord w).responses = s.responses := rfl

/-! ### Reads of a byte depend on storage and its number, or on the operand array and its number -/

@[simp] theorem State.respond_memRead (st : Status) (v : Long) (p : Nat) : (s.respond st v).memRead p = s.memRead p := rfl
@[simp] theorem State.advanceWrite_memRead (n : Word) (p : Nat) : (s.advanceWrite n).memRead p = s.memRead p := rfl
@[simp] theorem State.advanceWrite_oaRead (n : Word) (i : Nat) : (s.advanceWrite n).oaRead i = s.oaRead i := rfl
@[simp] theorem State.advanceRead_memRead (n : Word) (p : Nat) : (s.advanceRead n).memRead p = s.memRead p := rfl
@[simp] theorem State.advanceRead_oaRead (n : Word) (i : Nat) : (s.advanceRead n).oaRead i = s.oaRead i := rfl
@[simp] theorem State.construct_oaRead (n : Word) (m : Memory) (i : Nat) : (s.construct n m).oaRead i = s.oaRead i := rfl
@[simp] theorem State.freshArray_memRead (n : Word) (p : Nat) : (s.freshArray n).memRead p = s.memRead p := rfl
@[simp] theorem State.fillOperand_memRead (m : Memory) (p : Nat) : (s.fillOperand m).memRead p = s.memRead p := rfl
@[simp] theorem State.take_memRead (w : CommandWord) (m : Memory) (r : List Input) (p : Nat) : (s.take w m r).memRead p = s.memRead p := rfl
@[simp] theorem State.presentWord_memRead (w : CommandWord) (p : Nat) : (s.presentWord w).memRead p = s.memRead p := rfl
@[simp] theorem State.presentWord_oaRead (w : CommandWord) (i : Nat) : (s.presentWord w).oaRead i = s.oaRead i := rfl

end Sys2Proof.Machine
end

