-- ==== Sys2Proof/Laws/Memory.lean ====
section
/-! SUPPORT. What the memory operations do: the byte written is the byte read, every other byte is as before, the canonical form and every bound on addresses are kept. -/

namespace Sys2Proof.Machine

/-! ### One byte -/

@[simp] theorem Memory.read?_nil (a : Nat) : Memory.read? [] a = none := rfl

@[simp] theorem Memory.wf_nil : Memory.wf [] := List.Pairwise.nil

theorem State.reset_storage_wf : Memory.wf State.reset.storage := Memory.wf_nil

@[simp] theorem Memory.read?_write_same (m : Memory) (a : Nat) (v : Byte) :
    Memory.read? (Memory.write m a v) a = some v := by
  induction m with
  | nil => simp [Memory.write, Memory.read?]
  | cons c m ih =>
    obtain ⟨b, w⟩ := c
    simp only [Memory.write]
    split_ifs with h₁ h₂
    · simp [Memory.read?]
    · simp [Memory.read?]
    · simp [Memory.read?, h₂, ih]

theorem Memory.read?_write_ne (m : Memory) {a p : Nat} (v : Byte) (h : p ≠ a) :
    Memory.read? (Memory.write m a v) p = Memory.read? m p := by
  induction m with
  | nil => simp [Memory.write, Memory.read?, h]
  | cons c m ih =>
    obtain ⟨b, w⟩ := c
    simp only [Memory.write]
    split_ifs with h₁ h₂
    · simp [Memory.read?, h]
    · subst h₂; simp [Memory.read?, h]
    · simp [Memory.read?, ih]

theorem Memory.read?_write (m : Memory) (a p : Nat) (v : Byte) :
    Memory.read? (Memory.write m a v) p = if p = a then some v else Memory.read? m p := by
  split_ifs with h
  · subst h; simp
  · exact Memory.read?_write_ne m v h

/-- An entry after a write is the byte written or an entry from before. -/
theorem Memory.mem_write {m : Memory} {a : Nat} {v : Byte} {c : Host.Cell}
    (h : c ∈ Memory.write m a v) : c = (a, v) ∨ c ∈ m := by
  induction m with
  | nil => simpa [Memory.write] using h
  | cons d m ih =>
    obtain ⟨b, w⟩ := d
    simp only [Memory.write] at h
    split_ifs at h with h₁ h₂
    · simpa using h
    · rcases List.mem_cons.1 h with h | h
      · exact .inl h
      · exact .inr (List.mem_cons_of_mem _ h)
    · rcases List.mem_cons.1 h with h | h
      · exact .inr (h ▸ List.mem_cons_self)
      · exact (ih h).imp_right (List.mem_cons_of_mem _)

/-- A write keeps the canonical form. -/
theorem Memory.wf_write {m : Memory} (a : Nat) (v : Byte) (h : Memory.wf m) :
    Memory.wf (Memory.write m a v) := by
  induction m with
  | nil => simp [Memory.write, Memory.wf]
  | cons d m ih =>
    obtain ⟨b, w⟩ := d
    obtain ⟨hd, hm⟩ := List.pairwise_cons.1 h
    simp only [Memory.write]
    split_ifs with h₁ h₂
    · refine List.pairwise_cons.2 ⟨fun c hc => ?_, h⟩
      rcases List.mem_cons.1 hc with rfl | hc
      · exact h₁
      · exact h₁.trans (hd c hc)
    · subst h₂
      exact List.pairwise_cons.2 ⟨hd, hm⟩
    · refine List.pairwise_cons.2 ⟨fun c hc => ?_, ih hm⟩
      rcases Memory.mem_write hc with rfl | hc
      · show b < a
        omega
      · exact hd c hc

/-! ### Runs of bytes -/

/-- A run keeps the canonical form. -/
theorem storeRun_wf (pos : Nat → Nat) (b : Nat → Byte) (n : Nat) {m : Memory} (h : Memory.wf m) :
    Memory.wf (storeRun pos b n m) := by
  induction n with
  | zero => exact h
  | succ n ih => exact Memory.wf_write _ _ ih

/-- An entry after a run lies at one of the run's addresses or is an entry from before. -/
theorem storeRun_mem {pos : Nat → Nat} {b : Nat → Byte} {n : Nat} {m : Memory} {c : Host.Cell}
    (h : c ∈ storeRun pos b n m) : (∃ k < n, c.1 = pos k) ∨ c ∈ m := by
  induction n with
  | zero => exact .inr h
  | succ n ih =>
    rcases Memory.mem_write h with rfl | h
    · exact .inl ⟨n, n.lt_succ_self, rfl⟩
    · exact (ih h).imp_left fun ⟨k, hk, e⟩ => ⟨k, hk.trans n.lt_succ_self, e⟩

/-- A byte outside the run's addresses is as before. -/
theorem storeRun_read_other {pos : Nat → Nat} (b : Nat → Byte) {n : Nat} (m : Memory) {p : Nat}
    (h : ∀ k < n, p ≠ pos k) : Memory.read? (storeRun pos b n m) p = Memory.read? m p := by
  induction n with
  | zero => rfl
  | succ n ih =>
    rw [storeRun, Memory.read?_write_ne _ _ (h n n.lt_succ_self)]
    exact ih fun k hk => h k (hk.trans n.lt_succ_self)

/-- A byte of the run is read back, if no later byte of the run went to its address. -/
theorem storeRun_read {pos : Nat → Nat} (b : Nat → Byte) {n k : Nat} (m : Memory) (hk : k < n)
    (h : ∀ k' < n, k < k' → pos k' ≠ pos k) :
    Memory.read? (storeRun pos b n m) (pos k) = some (b k) := by
  induction n with
  | zero => omega
  | succ n ih =>
    rw [storeRun]
    rcases Nat.lt_succ_iff_lt_or_eq.1 hk with hk | rfl
    · rw [Memory.read?_write_ne _ _ (h n n.lt_succ_self hk).symm]
      exact ih hk fun k' hk' => h k' (hk'.trans n.lt_succ_self)
    · exact Memory.read?_write_same _ _ _

/-- Two runs that agree on the addresses and bytes they use are the same run. -/
theorem storeRun_congr {pos pos' : Nat → Nat} {b b' : Nat → Byte} {n : Nat} (m : Memory)
    (hp : ∀ k < n, pos k = pos' k) (hb : ∀ k < n, b k = b' k) :
    storeRun pos b n m = storeRun pos' b' n m := by
  induction n with
  | zero => rfl
  | succ n ih =>
    have hn := n.lt_succ_self
    rw [storeRun, storeRun, hp n hn, hb n hn,
      ih (fun k hk => hp k (hk.trans hn)) fun k hk => hb k (hk.trans hn)]

/-- A run of `a + n` bytes is the run of the first `a`, then the run of the other `n`. -/
theorem storeRun_add (pos : Nat → Nat) (b : Nat → Byte) (a n : Nat) (m : Memory) :
    storeRun pos b (a + n) m =
      storeRun (fun j => pos (a + j)) (fun j => b (a + j)) n (storeRun pos b a m) := by
  induction n with
  | zero => rfl
  | succ n ih => rw [← Nat.add_assoc, storeRun, ih, storeRun]

end Sys2Proof.Machine
end

