-- ==== Sys2Proof/Laws/Ops.lean ====
section
/-! SUPPORT. What each shared operation can do, said once: an inversion lemma for each end of a command and for each common part of the meanings. -/

namespace Sys2Proof.Machine

variable {s t : State}

/-! ### The ends of a command -/

theorem succeed_eq_next {v : Long} : succeed s v = .next t ↔ t = s.respond .ok v :=
  ⟨fun h => (Host.Outcome.next.inj h).symm, fun h => h ▸ rfl⟩

theorem raise_eq_next {st : Status} : raise s st = .next t ↔ t = s.respond st 0 :=
  ⟨fun h => (Host.Outcome.next.inj h).symm, fun h => h ▸ rfl⟩

theorem silentNoop_eq_next : silentNoop s = .next t ↔ t = s.respond noopStatus 0 := raise_eq_next

@[simp] theorem succeed_ne_fault {v : Long} {r : Fault} : succeed s v ≠ .fault r := nofun

@[simp] theorem raise_ne_fault {st : Status} {r : Fault} : raise s st ≠ .fault r := nofun

@[simp] theorem silentNoop_ne_fault {r : Fault} : silentNoop s ≠ .fault r := nofun

@[simp] theorem faultDomain_ne_next {r : Fault} : faultDomain r ≠ .next t := nofun

/-- A silent no-op is reported as ST_NOOP or as ST_OK, and as nothing else. -/
theorem noopStatus_cases : noopStatus = .ok ∨ noopStatus = .noop := by
  unfold noopStatus
  split <;> simp

/-- The not-configured check: it does not fire on a configured block. -/
@[simp] theorem whenConfigured_true (h : s.configured = true) (body : Outcome) :
    whenConfigured s body = body := if_pos h

/-- The not-configured check: on any other it answers, and the command's body does not count. -/
@[simp] theorem whenConfigured_false (h : s.configured = false) (body : Outcome) :
    whenConfigured s body = raise s .notConfigured := if_neg (by simp [h])

/-- A command under the check either runs on a configured block or is answered ST_NOT_CONFIGURED. -/
theorem whenConfigured_eq_next {body : Outcome} (h : whenConfigured s body = .next t) :
    (s.configured = true ∧ body = .next t) ∨
      (s.configured = false ∧ t = s.respond .notConfigured 0) := by
  cases hc : s.configured with
  | true => exact .inl ⟨rfl, whenConfigured_true hc body ▸ h⟩
  | false => exact .inr ⟨rfl, raise_eq_next.1 (whenConfigured_false hc body ▸ h)⟩

/-! ### The codecs' common part -/

theorem writeMasked_eq_next {n : Nat} {b : Nat → Byte} :
    writeMasked n b s = .next t ↔
      t = (({ s with storage := storeRun (position s.writeIndex s.mask) b n s.storage } : State).advanceWrite
        (BitVec.ofNat 32 n)).respond .ok 0 := succeed_eq_next

theorem readMasked_eq_next {n : Nat} {v : Long} :
    readMasked n v s = .next t ↔ t = (s.advanceRead (BitVec.ofNat 32 n)).respond .ok v :=
  succeed_eq_next

/-! ### The copies -/

/-- CopyIn is a run from `write_index`, or two runs, tail then head, or the domain fault of a head longer than storage. -/
theorem copyIn_cases (off count : Nat) (s : State) :
    (count < s.capacity.toNat - s.writeIndex.toNat ∧
      copyIn off count s = .ok (storeRun (fun j => s.writeIndex.toNat + j)
        (fun j => s.oaRead (off + j)) count s.storage)) ∨
    (∃ first rem, first = s.capacity.toNat - s.writeIndex.toNat ∧ first + rem = count ∧
      rem ≤ s.capacity.toNat ∧
      copyIn off count s = .ok (storeRun (fun j => j) (fun j => s.oaRead (off + first + j)) rem
        (storeRun (fun j => s.writeIndex.toNat + j) (fun j => s.oaRead (off + j)) first s.storage))) ∨
    (s.capacity.toNat + (s.capacity.toNat - s.writeIndex.toNat) < count ∧
      copyIn off count s = .error .splitOverrun) := by
  unfold copyIn
  dsimp only
  split_ifs with h₁ h₂
  · exact .inl ⟨h₁, rfl⟩
  · exact .inr (.inr ⟨by omega, rfl⟩)
  · exact .inr (.inl ⟨_, _, rfl, by omega, by omega, rfl⟩)

/-- CopyOut is the same from `read_index` into the operand array. -/
theorem copyOut_cases (off count : Nat) (s : State) :
    (count < s.capacity.toNat - s.readIndex.toNat ∧
      copyOut off count s = .ok (storeRun (fun j => off + j)
        (fun j => s.memRead (s.readIndex.toNat + j)) count s.operand.bytes)) ∨
    (∃ first rem, first = s.capacity.toNat - s.readIndex.toNat ∧ first + rem = count ∧
      rem ≤ s.capacity.toNat ∧
      copyOut off count s = .ok (storeRun (fun j => off + first + j) (fun j => s.memRead j) rem
        (storeRun (fun j => off + j) (fun j => s.memRead (s.readIndex.toNat + j)) first s.operand.bytes))) ∨
    (s.capacity.toNat + (s.capacity.toNat - s.readIndex.toNat) < count ∧
      copyOut off count s = .error .splitOverrun) := by
  unfold copyOut
  dsimp only
  split_ifs with h₁ h₂
  · exact .inl ⟨h₁, rfl⟩
  · exact .inr (.inr ⟨by omega, rfl⟩)
  · exact .inr (.inl ⟨_, _, rfl, by omega, by omega, rfl⟩)

/-- `write` past its checks answers only when its copy is in the domain, and then with that copy. -/
theorem copyInAndAdvance_eq_next {offset count : Word}
    (h : copyInAndAdvance offset count s = .next t) :
    ∃ m, copyIn offset.toNat count.toNat s = .ok m ∧
      t = (({ s with storage := m } : State).advanceWrite count).respond .ok 0 := by
  unfold copyInAndAdvance at h
  split at h
  · exact absurd h faultDomain_ne_next
  · exact ⟨_, by assumption, succeed_eq_next.1 h⟩

/-- `read_bytes` past its checks answers only when its copy is in the domain, and then with that copy. -/
theorem copyOutAndAdvance_eq_next {offset count : Word}
    (h : copyOutAndAdvance offset count s = .next t) :
    ∃ m, copyOut offset.toNat count.toNat s = .ok m ∧
      t = ((s.fillOperand m).advanceRead count).respond .ok 0 := by
  unfold copyOutAndAdvance at h
  split at h
  · exact absurd h faultDomain_ne_next
  · exact ⟨_, by assumption, succeed_eq_next.1 h⟩

end Sys2Proof.Machine
end

