-- ==== Sys2Proof/Laws/Copy.lean ====
section
/-! SUPPORT. The split copies equal the masked byte-by-byte form (20_memory R62 (a)), the positions of masked accesses, and what an answer leaves unchanged. -/

namespace Sys2Proof.Machine

/-! ### Positions, for a capacity given as a power of two -/

section
variable {cap mask : Word} {j : Nat}

theorem toNat_and_mask (hcap : cap.toNat = 2 ^ j) (hmask : mask = cap - 1) (c : Word) : (c &&& mask).toNat = c.toNat % 2 ^ j := by
  have hp : 1 ≤ 2 ^ j := Nat.one_le_two_pow
  have hm : mask.toNat = 2 ^ j - 1 := by
    rw [hmask, BitVec.toNat_sub_of_le]
    · simp [hcap]
    · simp only [BitVec.le_def, hcap]
      exact hp
  rw [BitVec.toNat_and, hm, Nat.and_two_pow_sub_one_eq_mod]

variable (hj : j ≤ 31) (hcap : cap.toNat = 2 ^ j) (hmask : mask = cap - 1)
include hj hcap hmask

/-- `(x + k) & mask` is `x + k` modulo the capacity: the 32-bit sum loses nothing (R36). -/
theorem position_eq_mod (x : Word) (k : Nat) : position x mask k = (x.toNat + k) % 2 ^ j := by
  have hd : 2 ^ j ∣ 2 ^ 32 := Nat.pow_dvd_pow 2 (by omega)
  rw [position, indexOf, toNat_and_mask hcap hmask, BitVec.toNat_add, BitVec.toNat_ofNat,
    Nat.mod_mod_of_dvd _ hd, Nat.add_mod, Nat.mod_mod_of_dvd _ hd, ← Nat.add_mod]

/-- Every masked position is one of storage (R50). -/
theorem position_lt_capacity (x : Word) (k : Nat) : position x mask k < cap.toNat := by
  rw [position_eq_mod hj hcap hmask, hcap]
  exact Nat.mod_lt _ Nat.one_le_two_pow

end

/-- A run whose addresses go on by one to the end of storage and then from 0 is a masked run. -/
theorem position_split {s : State} {x : Word} {j : Nat} (hj : j ≤ 31) (hcap : s.capacity.toNat = 2 ^ j)
    (hmask : s.mask = s.capacity - 1) {k : Nat} :
    (x.toNat + k < s.capacity.toNat → position x s.mask k = x.toNat + k) ∧
    (∀ i < s.capacity.toNat, x.toNat + k = s.capacity.toNat + i → position x s.mask k = i) := by
  rw [position_eq_mod hj hcap hmask]
  rw [hcap]
  exact ⟨fun h => Nat.mod_eq_of_lt h, fun i hi h => by rw [h, Nat.add_mod_left, Nat.mod_eq_of_lt hi]⟩

/-- R62 (a): CopyIn of a count that wraps at most once is the masked run. -/
theorem copyIn_eq_masked {s : State} {j : Nat} (hj : j ≤ 31) (hcap : s.capacity.toNat = 2 ^ j)
    (hmask : s.mask = s.capacity - 1) (off : Nat) {count : Nat}
    (hf : count + s.writeIndex.toNat ≤ 2 * s.capacity.toNat) :
    copyIn off count s = .ok (storeRun (position s.writeIndex s.mask) (fun k => s.oaRead (off + k)) count
      s.storage) := by
  have hx : s.writeIndex.toNat < s.capacity.toNat := by
    rw [State.writeIndex, indexOf, toNat_and_mask hcap hmask, hcap]
    exact Nat.mod_lt _ Nat.one_le_two_pow
  have hp := fun k => position_split (x := s.writeIndex) (k := k) hj hcap hmask
  rcases copyIn_cases off count s with ⟨h, e⟩ | ⟨first, rem, h, hr, hle, e⟩ | ⟨h, -⟩
  · rw [e, storeRun_congr _ (fun k hk => ((hp k).1 (by omega)).symm) fun _ _ => rfl]
  · rw [e, ← hr, storeRun_add,
      storeRun_congr s.storage (n := first) (fun k hk => ((hp k).1 (by omega)).symm) fun _ _ => rfl]
    congr 1
    refine storeRun_congr _ (fun k hk => ((hp (first + k)).2 k (by omega) (by omega)).symm) fun k _ => ?_
    rw [Nat.add_assoc]
  · omega

/-- R62 (a): CopyOut of a count that wraps at most once reads the masked positions. -/
theorem copyOut_eq_masked {s : State} {j : Nat} (hj : j ≤ 31) (hcap : s.capacity.toNat = 2 ^ j)
    (hmask : s.mask = s.capacity - 1) (off : Nat) {count : Nat}
    (hf : count + s.readIndex.toNat ≤ 2 * s.capacity.toNat) :
    copyOut off count s = .ok (storeRun (fun k => off + k)
      (fun k => s.memRead (position s.readIndex s.mask k)) count s.operand.bytes) := by
  have hx : s.readIndex.toNat < s.capacity.toNat := by
    rw [State.readIndex, indexOf, toNat_and_mask hcap hmask, hcap]
    exact Nat.mod_lt _ Nat.one_le_two_pow
  have hp := fun k => position_split (x := s.readIndex) (k := k) hj hcap hmask
  rcases copyOut_cases off count s with ⟨h, e⟩ | ⟨first, rem, h, hr, hle, e⟩ | ⟨h, -⟩
  · rw [e, storeRun_congr _ (fun _ _ => rfl)
      fun k hk => congrArg s.memRead ((hp k).1 (by omega)).symm]
  · rw [e, ← hr, storeRun_add, storeRun_congr s.operand.bytes (n := first) (fun _ _ => rfl)
      fun k hk => congrArg s.memRead ((hp k).1 (by omega)).symm]
    congr 1
    refine storeRun_congr _ (fun k _ => by rw [Nat.add_assoc]) fun k hk => ?_
    rw [(hp (first + k)).2 k (by omega) (by omega)]
  · omega

/-- A masked run of bytes is written as `WroteBytes` says. -/
theorem wroteBytes_storeRun (s : State) (n : Nat) (b : Nat → Byte) :
    WroteBytes s { s with storage := storeRun (position s.writeIndex s.mask) b n s.storage } n b := by
  constructor
  · intro k hk h
    rw [State.memRead, storeRun_read b _ hk h]
    rfl
  · intro p h
    rw [State.memRead, State.memRead, storeRun_read_other b _ h]

/-! ### Answers -/

theorem blockKept_respond (s : State) (st : Status) (v : Long) : BlockKept s (s.respond st v) :=
  ⟨⟨rfl, rfl, rfl, rfl⟩, ⟨rfl, fun _ => rfl⟩, ⟨rfl, rfl⟩, rfl, rfl⟩

theorem answeredPlain_respond (s : State) (st : Status) (v : Long) : AnsweredPlain s (s.respond st v) st v :=
  ⟨⟨rfl, rfl, rfl⟩, rfl⟩

/-- An answer keeps the invariant. -/
theorem inv_respond {s : State} (h : Inv s) (st : Status) (v : Long) : Inv (s.respond st v) := by
  obtain ⟨hc, hw, hb, ho, hi, hr⟩ := h
  refine ⟨hc, hw, hb, Memory.wf_nil, hi, fun r hm => ?_⟩
  rcases List.mem_cons.1 hm with rfl | hm
  · exact ho
  · exact hr r hm

end Sys2Proof.Machine
end

