-- ==== Sys2Proof/Laws/Decode.lean ====
section
/-! SUPPORT. The fields of a command word built from fields, and the opcode map read both ways. -/

namespace Sys2Proof

variable (op : BitVec 8) (av : Bool) (a b l : Word)

/-- The word of these fields, bit by bit (R81). -/
theorem commandWord_getLsbD (i : Nat) : (commandWord op av a b l).getLsbD i =
    if i < 8 then op.getLsbD i
    else if i < 9 then av
    else if i < 32 then false
    else if i < 64 then a.getLsbD (i - 32)
    else if i < 96 then b.getLsbD (i - 64)
    else l.getLsbD (i - 96) := by
  show BitVec.getLsbD (w := 32 + 32 + 32 + (23 + 1 + 8))
    (l ++ b ++ a ++ (0#23 ++ BitVec.ofBool av ++ op)) i = _
  simp only [BitVec.getLsbD_append, BitVec.getLsbD_ofBool, BitVec.getLsbD_zero]
  have e : i - 32 - 32 = i - 64 := by omega
  have e' : i - 64 - 32 = i - 96 := by omega
  rw [e, e']
  split_ifs <;> first | rfl | (exfalso; omega) | skip
  simp [show i - 8 = 0 by omega]

@[simp] theorem fieldOp_commandWord : fieldOp (commandWord op av a b l) = op := by
  apply BitVec.eq_of_getLsbD_eq
  intro i hi
  simp [fieldOp, commandWord_getLsbD, hi]

@[simp] theorem fieldAv_commandWord : fieldAv (commandWord op av a b l) = av := by
  simp only [fieldAv, commandWord_getLsbD]
  rfl

@[simp] theorem fieldRsv_commandWord : fieldRsv (commandWord op av a b l) = 0 := by
  apply BitVec.eq_of_getLsbD_eq
  intro i hi
  simp [fieldRsv, commandWord_getLsbD, show ¬ 9 + i < 8 by omega, show 9 + i < 32 by omega]

@[simp] theorem fieldA_commandWord : fieldA (commandWord op av a b l) = a := by
  apply BitVec.eq_of_getLsbD_eq
  intro i hi
  simp [fieldA, commandWord_getLsbD, hi, show ¬ 32 + i < 8 by omega, show ¬ 32 + i < 9 by omega,
    show 32 + i < 64 by omega]

@[simp] theorem fieldB_commandWord : fieldB (commandWord op av a b l) = b := by
  apply BitVec.eq_of_getLsbD_eq
  intro i hi
  simp [fieldB, commandWord_getLsbD, hi, show ¬ 64 + i < 8 by omega, show ¬ 64 + i < 9 by omega,
    show ¬ 64 + i < 32 by omega, show 64 + i < 96 by omega]

@[simp] theorem fieldL_commandWord : fieldL (commandWord op av a b l) = l := by
  apply BitVec.eq_of_getLsbD_eq
  intro i hi
  simp [fieldL, commandWord_getLsbD, hi, show ¬ 96 + i < 8 by omega, show ¬ 96 + i < 9 by omega,
    show ¬ 96 + i < 32 by omega, show ¬ 96 + i < 64 by omega]

/-- A word with `RSV` zero is the word of its fields. -/
theorem commandWord_of_fields (w : CommandWord) (h : fieldRsv w = 0) :
    commandWord (fieldOp w) (fieldAv w) (fieldA w) (fieldB w) (fieldL w) = w := by
  apply BitVec.eq_of_getLsbD_eq
  intro i hi
  simp only [commandWord_getLsbD, fieldOp, fieldAv, fieldA, fieldB, fieldL, BitVec.getLsbD_extractLsb']
  split_ifs with h₁ h₂ h₃ h₄ h₅
  · simp [h₁]
  · rw [show i = 8 by omega]
  · have := congrArg (fun v => v.getLsbD (i - 9)) h
    simpa [fieldRsv, show i - 9 < 23 by omega, show 9 + (i - 9) = i by omega] using this.symm
  · simp [show i - 32 < 32 by omega, show 32 + (i - 32) = i by omega]
  · simp [show i - 64 < 32 by omega, show 64 + (i - 64) = i by omega]
  · simp [show i - 96 < 32 by omega, show 96 + (i - 96) = i by omega]

/-- Each row's opcode names that row. -/
@[simp] theorem opOfCode_opCode (o : Op) : opOfCode (opCode o) = some o := by
  cases o <;> rfl

/-- No other opcode names it. -/
theorem opCode_of_opOfCode {c : BitVec 8} {o : Op} (h : opOfCode c = some o) : opCode o = c := by
  simpa using List.find?_some h

/-- The conditions of R88 all hold exactly when none of them is reported. -/
theorem firstError_eq_none {l : List (Bool × DecodeError)} :
    firstError l = none ↔ ∀ c ∈ l, c.1 = false := by
  induction l with
  | nil => simp [firstError]
  | cons c l ih =>
    obtain ⟨bad, e⟩ := c
    cases bad <;> simp [firstError, ih]

/-- A word decodes to a command exactly when `RSV` is zero, its opcode is a row's, it meets that row's format, and the
command is the row's with the word's operands. -/
theorem decode_eq_ok {w : CommandWord} {i : Instr} :
    decode w = .ok i ↔ fieldRsv w = 0 ∧ ∃ o, opOfCode (fieldOp w) = some o ∧
      (∀ c ∈ formatChecks (opFormat o) w, c.1 = false) ∧ assemble o w = i := by
  unfold decode
  by_cases hr : fieldRsv w = 0
  · simp only [hr, bne_self_eq_false, Bool.false_eq_true, if_false, true_and]
    cases ho : opOfCode (fieldOp w) with
    | none => simp
    | some o =>
      simp only [Option.some.injEq, exists_eq_left', ← firstError_eq_none]
      cases firstError (formatChecks (opFormat o) w) <;> simp
  · have : ¬ fieldRsv w = 0#23 := hr
    simp [this]

end Sys2Proof
end

