-- ==== Sys2Proof/Laws/PerInstr.lean ====
section
/-! SUPPORT. The family TableRow: the encoder's word of every command lies on the command's row of opcode_table.json (30_encoding R95). -/

namespace Sys2Proof.Laws.TableRow

/-- The word of a well-formed command matches its row under the row's mask and meets the row's constraint. -/
def Statement (i : Instr) : Prop :=
  wellFormed i = true →
    encode i &&& rowMask (instrOp i) = rowMatch (instrOp i) ∧ rowConstraint (instrOp i) (encode i)

/-- A mask cut at the fields is met field by field. -/
theorem commandWord_and (op : BitVec 8) (av : Bool) (a b l ma mb ml mc : Word) :
    commandWord op av a b l &&& (ml ++ mb ++ ma ++ mc) =
      (l &&& ml) ++ (b &&& mb) ++ (a &&& ma) ++ ((0#23 ++ BitVec.ofBool av ++ op) &&& mc) := by
  show ((l ++ b ++ a ++ (0#23 ++ BitVec.ofBool av ++ op : Word) : BitVec (32 + 32 + 32 + 32)) &&&
    (ml ++ mb ++ ma ++ mc : BitVec (32 + 32 + 32 + 32))) = _
  simp only [BitVec.and_append]

/-- Formats without an operand array have no constraint. -/
theorem rowConstraint_of_format {o : Op} (h : ¬ (opFormat o = .d ∨ opFormat o = .k)) (w : CommandWord) :
    rowConstraint o w := fun k => absurd k h

/-- The constraint of formats D and K is the operand condition of `wellFormed`. -/
theorem rowConstraint_commandWord (o : Op) (op : BitVec 8) {av : Bool} (a b : Word) {l : Word}
    (h : arrayWellFormed av l = true) : rowConstraint o (commandWord op av a b l) := by
  intro _ hav
  have e : av = false := fieldAv_commandWord op av a b l ▸ hav
  have : l = 0 := by simpa [arrayWellFormed, e] using h
  exact (fieldL_commandWord op av a b l).trans this

theorem encodeN_row {o : Op} (h : opFormat o = .n) (hc : encodeN o = rowMatch o) :
    encodeN o &&& rowMask o = rowMatch o ∧ rowConstraint o (encodeN o) := by
  refine ⟨?_, rowConstraint_of_format (by simp [h]) _⟩
  rw [hc, rowMask, h]
  exact (BitVec.and_allOnes : rowMatch o &&& BitVec.allOnes 128 = rowMatch o)

theorem encodeA_row {o : Op} (a : Word) (h : opFormat o = .c ∨ opFormat o = .v32)
    (hc : (0#32 ++ 0#32 ++ 0#32 ++ (0#23 ++ 0#1 ++ opCode o) : CommandWord) = rowMatch o) :
    encodeA o a &&& rowMask o = rowMatch o ∧ rowConstraint o (encodeA o a) := by
  have hm : rowMask o = (0xFFFFFFFF#32 ++ 0xFFFFFFFF#32 ++ 0#32 ++ 0xFFFFFFFF#32 : CommandWord) := by
    rcases h with h | h <;> rw [rowMask, h] <;> rfl
  refine ⟨?_, rowConstraint_of_format (by rcases h with h | h <;> simp [h]) _⟩
  rw [hm, encodeA, commandWord_and, ← hc]
  have h1 : ∀ x : Word, x &&& 0xFFFFFFFF#32 = x := fun x => BitVec.and_allOnes
  simp [h1]

theorem encodeV64_row {o : Op} (v : Long) (h : opFormat o = .v64)
    (hc : (0#32 ++ 0#32 ++ 0#32 ++ (0#23 ++ 0#1 ++ opCode o) : CommandWord) = rowMatch o) :
    encodeV64 o v &&& rowMask o = rowMatch o ∧ rowConstraint o (encodeV64 o v) := by
  have hm : rowMask o = (0xFFFFFFFF#32 ++ 0#32 ++ 0#32 ++ 0xFFFFFFFF#32 : CommandWord) := by
    rw [rowMask, h]; rfl
  refine ⟨?_, rowConstraint_of_format (by simp [h]) _⟩
  rw [hm, encodeV64, commandWord_and, ← hc]
  have h1 : ∀ x : Word, x &&& 0xFFFFFFFF#32 = x := fun x => BitVec.and_allOnes
  simp [h1]

theorem arrayWord_row {o : Op} {av : Bool} (a b l ma mb : Word) (hl : arrayWellFormed av l = true)
    (hm : rowMask o = (0#32 ++ mb ++ ma ++ 0xFFFFFEFF#32 : CommandWord))
    (ha : a &&& ma = 0) (hb : b &&& mb = 0)
    (hc : ∀ av, (0#32 ++ 0#32 ++ 0#32 ++ ((0#23 ++ BitVec.ofBool av ++ opCode o) &&& 0xFFFFFEFF#32) :
      CommandWord) = rowMatch o) :
    commandWord (opCode o) av a b l &&& rowMask o = rowMatch o ∧
      rowConstraint o (commandWord (opCode o) av a b l) := by
  refine ⟨?_, rowConstraint_commandWord _ _ _ _ hl⟩
  rw [hm, commandWord_and, ha, hb, ← hc av]
  simp

theorem initSize (size : Word) : Statement (.initSize size) := fun _ => encodeA_row size (.inl rfl) (by decide)

theorem initArray (av : Bool) (len : Word) : Statement (.initArray av len) := fun h =>
  arrayWord_row 0 0 len 0xFFFFFFFF 0xFFFFFFFF h (by decide) (by decide) (by decide) (by decide)

theorem capacity : Statement .capacity := fun _ => encodeN_row rfl (by decide)

theorem dataLength : Statement .dataLength := fun _ => encodeN_row rfl (by decide)

theorem remainingLength : Statement .remainingLength := fun _ => encodeN_row rfl (by decide)

theorem readIndex : Statement .readIndex := fun _ => encodeN_row rfl (by decide)

theorem writeIndex : Statement .writeIndex := fun _ => encodeN_row rfl (by decide)

theorem write (av : Bool) (len offset count : Word) : Statement (.write av len offset count) := fun h =>
  arrayWord_row count offset len 0 0 h (by decide) (by simp) (by simp) (by decide)

theorem readBytes (av : Bool) (len offset count : Word) : Statement (.readBytes av len offset count) :=
  fun h => arrayWord_row count offset len 0 0 h (by decide) (by simp) (by simp) (by decide)

theorem readBytesNew (count : Word) : Statement (.readBytesNew count) := fun _ =>
  encodeA_row count (.inl rfl) (by decide)

theorem writeByte (value : Byte) : Statement (.writeByte value) := fun _ => by
  refine ⟨?_, rowConstraint_of_format (by simp [instrOp, opFormat]) _⟩
  have hm : rowMask .writeByte =
      (0xFFFFFFFF#32 ++ 0xFFFFFFFF#32 ++ 0xFFFFFF00#32 ++ 0xFFFFFFFF#32 : CommandWord) := by decide
  have hv : ∀ value : Byte, value.setWidth 32 &&& 0xFFFFFF00#32 = 0#32 := by decide
  show commandWord _ _ _ _ _ &&& rowMask .writeByte = rowMatch .writeByte
  rw [hm, commandWord_and, hv]
  rfl

theorem readByte : Statement .readByte := fun _ => encodeN_row rfl (by decide)

theorem writeInt (value : Word) : Statement (.writeInt value) := fun _ =>
  encodeA_row value (.inr rfl) (by decide)

theorem readInt : Statement .readInt := fun _ => encodeN_row rfl (by decide)

theorem writeIntLe (value : Word) : Statement (.writeIntLe value) := fun _ =>
  encodeA_row value (.inr rfl) (by decide)

theorem readIntLe : Statement .readIntLe := fun _ => encodeN_row rfl (by decide)

theorem writeLong (value : Long) : Statement (.writeLong value) := fun _ =>
  encodeV64_row value rfl (by decide)

theorem readLong : Statement .readLong := fun _ => encodeN_row rfl (by decide)

theorem writeLongLe (value : Long) : Statement (.writeLongLe value) := fun _ =>
  encodeV64_row value rfl (by decide)

theorem readLongLe : Statement .readLongLe := fun _ => encodeN_row rfl (by decide)

theorem markWriteIndex : Statement .markWriteIndex := fun _ => encodeN_row rfl (by decide)

theorem resetWriteIndex : Statement .resetWriteIndex := fun _ => encodeN_row rfl (by decide)

theorem markReadIndex : Statement .markReadIndex := fun _ => encodeN_row rfl (by decide)

theorem resetReadIndex : Statement .resetReadIndex := fun _ => encodeN_row rfl (by decide)

theorem skipWriteBytes (count : Word) : Statement (.skipWriteBytes count) := fun _ =>
  encodeA_row count (.inl rfl) (by decide)

theorem skipReadBytes (count : Word) : Statement (.skipReadBytes count) := fun _ =>
  encodeA_row count (.inl rfl) (by decide)

end Sys2Proof.Laws.TableRow
end

