-- ==== Sys2Proof/Machine/Listing.lean ====
section
/-! DEFINITION. The textual syntax of listings (30_encoding R81, R92): commands as calls, words as `L_B_A_C`, responses after `->`. No step uses it. -/

namespace Sys2Proof.Machine

/-- One hexadecimal digit. -/
def hexDigit (n : Nat) : Char := Char.ofNat (if n % 16 < 10 then 48 + n % 16 else 55 + n % 16)

/-- The low `d` hexadecimal digits of `n`, most significant first. -/
def hexDigits : Nat → Nat → List Char
  | 0, _ => []
  | d + 1, n => hexDigits d (n / 16) ++ [hexDigit n]

/-- A hexadecimal number of `d` digits with its prefix. -/
def hexText (d n : Nat) : String := "0x" ++ String.ofList (hexDigits d n)

/-- A decimal number. -/
def decText (n : Nat) : String := String.ofList (Nat.toDigits 10 n)

/-- A command word in four 32-bit groups, most significant first (R81). -/
def wordText (w : CommandWord) : String :=
  String.ofList (hexDigits 8 (fieldL w).toNat) ++ "_" ++ String.ofList (hexDigits 8 (fieldB w).toNat) ++ "_" ++
    String.ofList (hexDigits 8 (fieldA w).toNat) ++ "_" ++ String.ofList (hexDigits 8 (w.extractLsb' 0 32).toNat)

/-- One byte of an array, `??` where nobody has given it (the sign of 95_test_vectors). -/
def byteText : Option Byte → String
  | some b => String.ofList (hexDigits 2 b.toNat)
  | none => "??"

/-- A present array as its bytes in hexadecimal between square brackets, `[]` the empty one. -/
def bytesText (len : Nat) (array : Memory) : String :=
  "[" ++ " ".intercalate ((List.range len).map fun i => byteText (Memory.read? array i)) ++ "]"

/-- A source or backing array; `null` where there is none. -/
def sourceText (av : Bool) (len : Word) (array : Memory) : String :=
  if av then bytesText len.toNat array else "null"

/-- A destination: a present array of length n as `dst[n]`, its prior contents shown beside. -/
def destinationText (av : Bool) (len : Word) : String :=
  if av then "dst[" ++ decText len.toNat ++ "]" else "null"

/-- A command's operands in the order of the source's signature. -/
def operandTexts (i : Instr) (array : Memory) : List String :=
  match i with
  | .initSize size => [decText size.toNat]
  | .initArray av len => [sourceText av len array]
  | .write av len offset count => [sourceText av len array, decText offset.toNat, decText count.toNat]
  | .readBytes av len offset count => [destinationText av len, decText offset.toNat, decText count.toNat]
  | .readBytesNew count => [decText count.toNat]
  | .writeByte value => [hexText 2 value.toNat]
  | .writeInt value => [hexText 8 value.toNat]
  | .writeIntLe value => [hexText 8 value.toNat]
  | .writeLong value => [hexText 16 value.toNat]
  | .writeLongLe value => [hexText 16 value.toNat]
  | .skipWriteBytes count => [decText count.toNat]
  | .skipReadBytes count => [decText count.toNat]
  | .capacity | .dataLength | .remainingLength | .readIndex | .writeIndex
  | .readByte | .readInt | .readIntLe | .readLong | .readLongLe
  | .markWriteIndex | .resetWriteIndex | .markReadIndex | .resetReadIndex => []

/-- A command as a call: the mnemonic of R86, then the operands in parentheses. -/
def commandText (i : Instr) (array : Memory) : String :=
  opMnemonic (instrOp i) ++ "(" ++ ", ".intercalate (operandTexts i array) ++ ")"

/-- The names of R85. -/
def statusName : Status → String
  | .ok => "ST_OK"
  | .noop => "ST_NOOP"
  | .errOverwrite => "ST_ERR_OVERWRITE"
  | .errConfig => "ST_ERR_CONFIG"
  | .illegal => "ST_ILLEGAL"
  | .notConfigured => "ST_NOT_CONFIGURED"
  | .faultDomain => "ST_FAULT_DOMAIN"

/-- How VALUE is written after the status of a command that returns one, in hexadecimal digits or in decimal (R85). -/
def valueText (i : Instr) (v : Long) : String :=
  match instrOp i with
  | .capacity | .dataLength | .readIndex | .writeIndex => " " ++ decText v.toNat
  | .remainingLength => if v.toInt < 0 then " -" ++ decText v.toInt.natAbs else " " ++ decText v.toNat
  | .readByte => " " ++ hexText 2 v.toNat
  | .readInt | .readIntLe => " " ++ hexText 8 v.toNat
  | .readLong | .readLongLe => " " ++ hexText 16 v.toNat
  | .initSize | .initArray | .write | .readBytes | .readBytesNew | .writeByte
  | .writeInt | .writeIntLe | .writeLong | .writeLongLe
  | .markWriteIndex | .resetWriteIndex | .markReadIndex | .resetReadIndex
  | .skipWriteBytes | .skipReadBytes => ""

/-- A command's response after its text: the status name and, with ST_OK, the value the operation returns. -/
def responseText (i : Instr) (r : Response) : String :=
  "-> " ++ statusName r.status ++ (if r.status = .ok then valueText i r.value else "")

end Sys2Proof.Machine
end

