-- ==== Sys2Proof/Tests/Slice0.lean ====
section
/-! SUPPORT. The session's own tests: words written out from 30_encoding, rows of the tables of 95_test_vectors run for one command, the WellFormed smoke test, and for every statement with hypotheses a state and operands that meet them. -/

namespace Sys2Proof.Tests

open Sys2Proof.Machine

/-! ### Helpers -/

/-- A configured block with these counters and this storage. -/
def block (cap wc rc : Word) (storage : Memory := []) : State :=
  { State.reset with
    configured := true, capacity := cap, mask := cap - 1
    writeCount := wc, readCount := rc, storage := storage }

/-- The bytes at addresses 0, 1, 2, … -/
def bytes (l : List Byte) : Memory := l.zipIdx.map fun c => (c.2, c.1)

/-- What is so of the state a command leaves; false where it leaves none. -/
def after (o : Outcome) (f : State → Bool) : Bool :=
  match o with
  | .next t => f t
  | .fault _ => false
  | .refused _ => false

/-- The newest response has this status and value. -/
def answered (st : Status) (v : Long) (t : State) : Bool :=
  match t.responses with
  | [] => false
  | r :: _ => r.status == st && r.value == v

/-- A present array of these bytes. -/
def arr (l : List Byte) : OperandArray :=
  { valid := true, length := BitVec.ofNat 32 l.length, number := 0, bytes := bytes l }

/-- The newest response hands back a present array of length `n`, of which these bytes have been given. -/
def handsBack (n : Word) (m : Memory) (t : State) : Bool :=
  match t.responses with
  | [] => false
  | r :: _ => r.array.valid && r.array.length == n && r.array.bytes == m

/-- The fault a command stops with, if it does. -/
def faultOf : Outcome → Option Fault
  | .next _ => none
  | .fault r => some r
  | .refused _ => none

/-! ### WellFormed: a term for each check, which the check refuses (30 R88) -/

theorem test_wellFormed_initArray_null : wellFormed (.initArray false 8) = false := by decide

theorem test_wellFormed_write_null : wellFormed (.write false 4 0 0) = false := by decide

theorem test_wellFormed_readBytes_null : wellFormed (.readBytes false 1 0 0) = false := by decide

theorem test_wellFormed_null_without_length : wellFormed (.write false 0 0 3) = true := by decide

/-! ### Decoding: one word per command, written `L_B_A_C` from R81, R82, R86 (many stand in R94 and programs P1 to P5) -/

theorem test_decode_initSize :
    decode 0x00000000_00000000_00000010_00000001#128 = .ok (.initSize 16) := by decide

theorem test_decode_initArray :
    decode 0x00000008_00000000_00000000_00000102#128 = .ok (.initArray true 8) := by decide

theorem test_decode_capacity : decode 0x00000000_00000000_00000000_00000010#128 = .ok .capacity := by decide

theorem test_decode_dataLength :
    decode 0x00000000_00000000_00000000_00000011#128 = .ok .dataLength := by decide

theorem test_decode_remainingLength :
    decode 0x00000000_00000000_00000000_00000012#128 = .ok .remainingLength := by decide

theorem test_decode_readIndex : decode 0x00000000_00000000_00000000_00000013#128 = .ok .readIndex := by decide

theorem test_decode_writeIndex :
    decode 0x00000000_00000000_00000000_00000014#128 = .ok .writeIndex := by decide

theorem test_decode_write :
    decode 0x00000006_00000001_00000004_00000120#128 = .ok (.write true 6 1 4) := by decide

theorem test_decode_readBytes :
    decode 0x00000006_00000001_00000004_00000121#128 = .ok (.readBytes true 6 1 4) := by decide

theorem test_decode_readBytesNew :
    decode 0x00000000_00000000_00000006_00000022#128 = .ok (.readBytesNew 6) := by decide

theorem test_decode_writeByte :
    decode 0x00000000_00000000_000000AB_00000030#128 = .ok (.writeByte 0xAB) := by decide

theorem test_decode_readByte : decode 0x00000000_00000000_00000000_00000031#128 = .ok .readByte := by decide

theorem test_decode_writeInt :
    decode 0x00000000_00000000_01020304_00000040#128 = .ok (.writeInt 0x01020304) := by decide

theorem test_decode_readInt : decode 0x00000000_00000000_00000000_00000041#128 = .ok .readInt := by decide

theorem test_decode_writeIntLe :
    decode 0x00000000_00000000_01020304_00000042#128 = .ok (.writeIntLe 0x01020304) := by decide

theorem test_decode_readIntLe : decode 0x00000000_00000000_00000000_00000043#128 = .ok .readIntLe := by decide

theorem test_decode_writeLong :
    decode 0x00000000_11223344_55667788_00000044#128 = .ok (.writeLong 0x1122334455667788) := by decide

theorem test_decode_readLong : decode 0x00000000_00000000_00000000_00000045#128 = .ok .readLong := by decide

theorem test_decode_writeLongLe :
    decode 0x00000000_11223344_55667788_00000046#128 = .ok (.writeLongLe 0x1122334455667788) := by decide

theorem test_decode_readLongLe :
    decode 0x00000000_00000000_00000000_00000047#128 = .ok .readLongLe := by decide

theorem test_decode_markWriteIndex :
    decode 0x00000000_00000000_00000000_00000050#128 = .ok .markWriteIndex := by decide

theorem test_decode_resetWriteIndex :
    decode 0x00000000_00000000_00000000_00000051#128 = .ok .resetWriteIndex := by decide

theorem test_decode_markReadIndex :
    decode 0x00000000_00000000_00000000_00000052#128 = .ok .markReadIndex := by decide

theorem test_decode_resetReadIndex :
    decode 0x00000000_00000000_00000000_00000053#128 = .ok .resetReadIndex := by decide

theorem test_decode_skipWriteBytes :
    decode 0x00000000_00000000_00000081_00000060#128 = .ok (.skipWriteBytes 129) := by decide

theorem test_decode_skipReadBytes :
    decode 0x00000000_00000000_0000007E_00000061#128 = .ok (.skipReadBytes 126) := by decide

/-! ### Encoding: the same words the other way, one per format (R94) -/

theorem test_encode_formats :
    encode .dataLength = 0x00000000_00000000_00000000_00000011#128 ∧
    encode (.initSize 128) = 0x00000000_00000000_00000080_00000001#128 ∧
    encode (.writeByte 0xAB) = 0x00000000_00000000_000000AB_00000030#128 ∧
    encode (.writeInt 0x01020304) = 0x00000000_00000000_01020304_00000040#128 ∧
    encode (.writeLongLe 0x1122334455667788) = 0x00000000_11223344_55667788_00000046#128 ∧
    encode (.write true 4 1 3) = 0x00000004_00000001_00000003_00000120#128 ∧
    encode (.write false 0 0 3) = 0x00000000_00000000_00000003_00000020#128 ∧
    encode (.initArray true 8) = 0x00000008_00000000_00000000_00000102#128 := by decide

/-! ### Illegal words (table V10): each check of R88 and R89 -/

theorem test_illegal_words :
    decode 0x00000000_00000000_00000000_00000000#128 = .error .unassignedOpcode ∧
    decode 0x00000000_00000000_00000000_00000015#128 = .error .unassignedOpcode ∧
    decode 0x00000000_00000000_00000000_00000211#128 = .error .reservedNonzero ∧
    decode 0x00000000_00000000_00000000_00000111#128 = .error .avNonzero ∧
    decode 0x00000000_00000001_00000004_00000060#128 = .error .bNonzero ∧
    decode 0x00000004_00000000_00000000_00000020#128 = .error .nullWithLength ∧
    decode 0x00000000_00000000_00000001_00000041#128 = .error .aNonzero ∧
    decode 0x00000000_00000000_000001AB_00000030#128 = .error .aNonzero ∧
    decode 0x00000001_00000000_00000000_00000011#128 = .error .lNonzero ∧
    decode 0x00000008_00000000_00000001_00000102#128 = .error .aNonzero := by decide

/-! ### Responses (R84, R85) -/

theorem test_response_word :
    responseWord { status := .ok, value := 0x01020304, array := .null } = 0x00_0000000001020304#72 ∧
    responseWord { status := .errOverwrite, value := 0, array := .null } = 0x02_0000000000000000#72 := by
  decide

/-! ### Listings (R92, R94) -/

theorem test_listing :
    commandText (.write true 4 1 3) (bytes [0xAA, 0xBB, 0xCC, 0xDD]) = "write([AA BB CC DD], 1, 3)" ∧
    commandText (.readBytes true 4 0 3) [] = "read_bytes(dst[4], 0, 3)" ∧
    commandText (.writeInt 0x01020304) [] = "write_int(0x01020304)" ∧
    wordText (encode (.write true 4 1 3)) = "00000004_00000001_00000003_00000120" ∧
    responseText .readInt { status := .ok, value := 0x01020304, array := .null } = "-> ST_OK 0x01020304" := by
  decide

/-! ### The step: the common checks in their order (tables V10, P3) -/

/-- `data_length()` after hardware reset: ST_NOT_CONFIGURED (P3 line 1). -/
theorem test_step_not_configured :
    after (step (State.reset.withFetchWord 128 0x11)) (answered .notConfigured 0) = true := by decide

/-- An illegal word before construction is ST_ILLEGAL, not ST_NOT_CONFIGURED (V10, priority). -/
theorem test_step_illegal_first :
    after (step (State.reset.withFetchWord 128 0x00000001_00000041)) (answered .illegal 0) = true := by
  decide

/-- `init_size(128)` after hardware reset (P3 line 4). -/
theorem test_step_init_size :
    after (step (State.reset.withFetchWord 128 0x00000080_00000001))
      (fun t => answered .ok 0 t && t.configured && t.capacity == 128 && t.mask == 127) = true := by decide

/-- A hardware reset clears `configured` (R230). -/
theorem test_step_hardware_reset :
    after (step { block 8 5 3 with inputs := [.hardwareReset] })
      (fun t => !t.configured && t.responses == []) = true := by decide

/-! ### Construction (table V9) -/

theorem test_init_size_rejects :
    after (exec (.initSize 100) (block 8 5 0))
      (fun t => answered .errConfig 0 t && t.capacity == 8 && t.writeCount == 5) = true ∧
    after (exec (.initSize 0) State.reset) (answered .errConfig 0) = true := by decide

theorem test_init_size_largest :
    after (exec (.initSize 0x80000000) State.reset)
      (fun t => answered .ok 0 t && t.mask == 0x7FFFFFFF) = true := by decide

theorem test_init_array_null :
    faultOf (exec (.initArray false 0) State.reset) = some .nullBacking ∧
    after (exec (.initArray true 0) State.reset) (answered .errConfig 0) = true := by decide

/-- The example of R191: the array's bytes are the storage, the buffer is empty. -/
theorem test_init_array_loads :
    after (exec (.initArray true 8)
        { State.reset with operand := arr [0x10, 0x11, 0x12, 0x13, 0x14, 0x15, 0x16, 0x17] })
      (fun t => t.storage == bytes [0x10, 0x11, 0x12, 0x13, 0x14, 0x15, 0x16, 0x17] &&
        t.capacity == 8 && t.dataLength == 0) = true := by decide

/-- After `init_size` an unwritten byte is the free value of this storage array (U4), and the command runs (log 5). -/
theorem test_fresh_byte_is_free (t : State) (h : exec (.initSize 8) State.reset = .next t) :
    t.memRead 3 = Config.storageByte 1 3 := by
  cases h; rfl

/-! ### Observers (table V1) -/

theorem test_capacity :
    after (exec .capacity (block 0x80000000 0 0)) (answered .ok 0x80000000) = true := by decide

theorem test_data_length_wraps :
    after (exec .dataLength (block 8 2 0xFFFFFFFE)) (answered .ok 4) = true ∧
    after (exec .dataLength (block 4 5 6)) (answered .ok 0xFFFFFFFF) = true := by decide

theorem test_remaining_length_negative :
    after (exec .remainingLength (block 8 20 8)) (answered .ok 0xFFFFFFFFFFFFFFFC) = true ∧
    after (exec .remainingLength (block 4 5 6)) (answered .ok 0xFFFFFFFF00000005) = true := by decide

theorem test_read_index :
    after (exec .readIndex (block 0x80000000 4 0xFFFFFFFC)) (answered .ok 0x7FFFFFFC) = true := by decide

theorem test_write_index :
    after (exec .writeIndex (block 8 10 6)) (answered .ok 2) = true := by decide

/-! ### write (tables V2, V3) -/

/-- V3, the source's boundary test: index 6, four bytes, two at the tail and two at the head. -/
theorem test_write_splits :
    after (exec (.write true 4 0 4) { block 8 6 6 with operand := arr [1, 2, 3, 4] })
      (fun t => answered .ok 0 t && t.writeCount == 10 &&
        t.storage == [(0, 3), (1, 4), (6, 1), (7, 2)]) = true := by decide

/-- V3: the head copy runs over the tail; remainder equal to capacity is the largest defined; one more is a fault. -/
theorem test_write_overlaps :
    after (exec (.write true 13 0 13)
        { block 8 3 3 with operand := arr [1, 2, 3, 4, 5, 6, 7, 8, 9, 10, 11, 12, 13] })
      (fun t => t.storage == bytes [6, 7, 8, 9, 10, 11, 12, 13]) = true ∧
    faultOf (exec (.write true 14 0 14) (block 8 3 3)) = some .splitOverrun ∧
    faultOf (exec (.write true 15 1 0xFFFFFFFF) (block 8 0 0)) = some .srcRange := by decide

/-- V2: a null source, an empty one and an offset beyond the length change nothing; offset equal to the length is fine. -/
theorem test_write_noop :
    after (exec (.write false 0 0 3) (block 8 0 0)) (fun t => t.writeCount == 0 && t.storage == []) = true ∧
    after (exec (.write true 0 0 3) (block 8 0 0)) (fun t => t.writeCount == 0) = true ∧
    after (exec (.write true 3 4 0) (block 8 0 0)) (fun t => t.writeCount == 0) = true ∧
    after (exec (.write true 3 3 0) (block 8 0 0)) (answered .ok 0) = true := by decide

/-! ### read_bytes and read_bytes_new (table V4) -/

/-- The state of V4. -/
def v4 : State := block 8 10 6 (bytes [0xA3, 0xA4, 0x12, 0x13, 0x14, 0x15, 0xA1, 0xA2])

theorem test_read_bytes_splits :
    after (exec (.readBytes true 6 1 4) { v4 with operand := arr [0, 0, 0, 0, 0, 0] })
      (fun t => answered .ok 0 t && t.readCount == 10 &&
        handsBack 6 (bytes [0, 0xA1, 0xA2, 0xA3, 0xA4, 0]) t && t.storage == v4.storage) = true := by decide

/-- The data check comes before the range check; past it the range check faults. -/
theorem test_read_bytes_checks :
    after (exec (.readBytes true 2 0 5) { v4 with operand := arr [0, 0] })
      (fun t => t.readCount == 6 && handsBack 2 (bytes [0, 0]) t) = true ∧
    faultOf (exec (.readBytes true 2 0 4) v4) = some .dstRange ∧
    after (exec (.readBytes true 0 0 0) v4) (answered .ok 0) = true := by decide

/-- On too little data the array has length 5 and each of its bytes is free (U5). -/
theorem test_read_bytes_new :
    after (exec (.readBytesNew 4) v4)
      (fun t => answered .ok 0 t && t.readCount == 10 && handsBack 4 (bytes [0xA1, 0xA2, 0xA3, 0xA4]) t) = true ∧
    after (exec (.readBytesNew 5) v4) (fun t => t.readCount == 6 && handsBack 5 [] t) = true := by decide

theorem test_read_bytes_new_ends :
    after (exec (.readBytesNew 0) v4) (fun t => answered .ok 0 t && handsBack 0 [] t) = true ∧
    after (exec (.readBytesNew 0xFFFFFFFF) v4) (handsBack 0xFFFFFFFF []) = true := by decide

/-- AV and L of the word are those of the operand array (R53): an observer's null one, an array of 2 for `read_bytes`. -/
theorem test_step_operand_array :
    after (step { v4 with inputs := [.command 0x11#128 []] })
      (fun t => t.responses.map (fun r => (r.array.valid, r.array.length)) == [(false, 0)]) = true ∧
    after (step { v4 with inputs := [.command 0x00000002_00000000_00000002_00000121#128 (bytes [0, 0])] })
      (handsBack 2 (bytes [0xA1, 0xA2])) = true := by decide

/-! ### Single bytes (table V5) -/

theorem test_write_byte_full :
    after (exec (.writeByte 0x11) (block 4 4 0 (bytes [0xAA, 0xBB, 0xCC, 0xDD])))
      (fun t => answered .ok 0 t && t.storage == bytes [0x11, 0xBB, 0xCC, 0xDD] &&
        t.writeCount == 5 && t.remainingLength == -1) = true := by decide

theorem test_write_byte_wraps :
    after (exec (.writeByte 0x7F) (block 1 0xFFFFFFFF 0xFFFFFFFF))
      (fun t => t.storage == [(0, 0x7F)] && t.writeCount == 0 && t.dataLength == 1) = true := by decide

theorem test_read_byte_without_data :
    after (exec .readByte (block 8 8 8 [(0, 0x5A)]))
      (fun t => answered .ok 0x5A t && t.readCount == 9 && t.dataLength == 0xFFFFFFFF) = true := by decide

/-! ### Codecs (table V6) -/

theorem test_write_int_wraps :
    after (exec (.writeInt 0x01020304) (block 8 0xFFFFFFFE 0xFFFFFFFE))
      (fun t => t.storage == [(0, 3), (1, 4), (6, 1), (7, 2)] && t.writeCount == 2) = true := by decide

theorem test_write_int_narrow :
    after (exec (.writeInt 0x01020304) (block 2 1 1)) (fun t => t.storage == [(0, 4), (1, 3)]) = true := by
  decide

theorem test_write_int_le :
    after (exec (.writeIntLe 0x80000000) (block 16 0 0))
      (fun t => t.storage == bytes [0, 0, 0, 0x80] && t.writeCount == 4) = true := by decide

theorem test_write_long :
    after (exec (.writeLong 0x0102030405060708) (block 8 5 5))
      (fun t => t.storage == bytes [4, 5, 6, 7, 8, 1, 2, 3] && t.writeCount == 13) = true ∧
    after (exec (.writeLong 0x0102030405060708) (block 1 0 0)) (fun t => t.storage == [(0, 8)]) = true := by
  decide

theorem test_write_long_le :
    after (exec (.writeLongLe 0x1122334455667788) (block 16 0 0))
      (fun t => t.storage == bytes [0x88, 0x77, 0x66, 0x55, 0x44, 0x33, 0x22, 0x11]) = true := by decide

/-- The storage of V6's reads. -/
def v6 : State := block 16 8 0 (bytes [0x11, 0x22, 0x33, 0x44, 0x55, 0x66, 0x77, 0x88])

theorem test_read_int :
    after (exec .readInt v6) (fun t => answered .ok 0x11223344 t && t.readCount == 4) = true ∧
    after (exec .readInt (block 2 0 0 (bytes [0xAA, 0xBB]))) (answered .ok 0xAABBAABB) = true := by decide

theorem test_read_int_le :
    after (exec .readIntLe v6) (fun t => answered .ok 0x44332211 t && t.readCount == 4) = true ∧
    after (exec .readIntLe (block 2 0 0 (bytes [0xAA, 0xBB]))) (answered .ok 0xBBAABBAA) = true := by decide

theorem test_read_long :
    after (exec .readLong v6) (fun t => answered .ok 0x1122334455667788 t && t.readCount == 8) = true := by
  decide

theorem test_read_long_le :
    after (exec .readLongLe v6) (fun t => answered .ok 0x8877665544332211 t && t.readCount == 8) = true := by
  decide

/-! ### Mark and reset (table V7) -/

theorem test_mark_write_index :
    after (exec .markWriteIndex (block 8 10 0)) (fun t => t.markedWriteCount == 10) = true := by decide

theorem test_reset_write_index :
    after (exec .resetWriteIndex { block 8 14 8 with markedWriteCount := 10 })
      (fun t => t.writeCount == 10 && t.dataLength == 2) = true := by decide

theorem test_mark_read_index :
    after (exec .markReadIndex (block 8 9 3)) (fun t => t.markedReadCount == 3) = true := by decide

theorem test_reset_read_index :
    after (exec .resetReadIndex { block 8 9 7 with markedReadCount := 3 })
      (fun t => t.readCount == 3 && t.dataLength == 6 && t.markedReadCount == 3) = true := by decide

/-! ### Skip (table V8) -/

theorem test_skip_write_bytes :
    after (exec (.skipWriteBytes 128) (block 128 0 0))
      (fun t => answered .ok 0 t && t.writeCount == 128 && t.remainingLength == 0) = true ∧
    after (exec (.skipWriteBytes 129) (block 128 0 0))
      (fun t => answered .errOverwrite 0 t && t.writeCount == 0) = true := by decide

/-- Over-full: every count fails, 0 too. -/
theorem test_skip_write_bytes_overfull :
    after (exec (.skipWriteBytes 0) (block 4 5 0)) (answered .errOverwrite 0) = true := by decide

theorem test_skip_read_bytes :
    after (exec (.skipReadBytes 7) (block 8 6 1))
      (fun t => answered .ok 0 t && t.readCount == 8 && t.dataLength == 0xFFFFFFFE) = true := by decide

/-! ### Witnesses: a state and operands that meet each statement's hypotheses -/

theorem witness_DecodeOfEncodeIsIdentity :
    wellFormed (.write true 0xFFFFFFFF 0xFFFFFFFF 0xFFFFFFFF) = true ∧ wellFormed (.readBytes false 0 9 9) = true := by
  decide

theorem witness_EncodeOfDecodeIsIdentity :
    decode 0x00000000_00000000_00000003_00000020#128 = .ok (.write false 0 0 3) := by decide

theorem witness_StepRunsDecodedCommand :
    { block 8 0 0 with inputs := [.command 0x31#128 []] }.inputs = .command 0x31#128 [] :: [] ∧
      decode 0x31#128 = .ok .readByte ∧ fieldAv 0x31#128 = false ∧
    decode 0x00000006_00000001_00000004_00000120#128 = .ok (.write true 6 1 4) ∧
    decode 0x00000006_00000001_00000004_00000121#128 = .ok (.readBytes true 6 1 4) ∧
    decode 0x00000008_00000000_00000000_00000102#128 = .ok (.initArray true 8) := by decide

theorem witness_StepAnswersIllegalWord :
    { block 8 0 0 with inputs := [.command 0#128 [(0, 1)]] }.inputs = .command 0#128 [(0, 1)] :: [] ∧
      decode 0#128 = .error .unassignedOpcode := by decide

theorem witness_StepTakesHostEvents :
    State.reset.inputs = [] ∧
      { block 8 0 0 with inputs := [.hardwareReset] }.inputs = .hardwareReset :: [] := by decide

theorem witness_StepKeepsInvariant :
    Inv { v4 with inputs := [.command 0x30#128 []] } ∧
      ∃ t, step { v4 with inputs := [.command 0x30#128 []] } = .next t := ⟨by decide, _, rfl⟩

theorem witness_UnconfiguredCommandsAnswered :
    isConstruction .capacity = false ∧ State.reset.configured = false ∧
      ∃ t r rest, exec .capacity State.reset = .next t ∧ t.responses = r :: rest ∧
        r.status = .notConfigured := ⟨by decide, rfl, _, _, _, rfl, rfl, rfl⟩

/-- For the statements whose one hypothesis is that the block is configured: the observers, `WriteByteStoresAtWriteIndex`,
`ReadByteReturnsByteAtReadIndex`, the eight codecs, the four marks and resets, `SkipReadDiscards`; and with the
invariant, where the index statements ask for it. -/
theorem witness_configured : v4.configured = true ∧ Inv v4 := by decide

/-- Capacity 1 and the largest, the ends of the range; and an over-full block, where `remaining_length` is negative. -/
theorem witness_IndexIsCounterModCapacity_RemainingLengthIsSigned :
    Inv (block 1 7 7) ∧ Inv (block 0x80000000 4 0xFFFFFFFC) ∧ Inv (block 8 20 8) ∧
      (block 8 20 8).capacity.toNat < (block 8 20 8).dataLength.toNat := by decide

/-- For both constructions and for ConfigurationError: the ends of what `IsPow2` takes and refuses. -/
theorem witness_InitSizeBuildsOrRejects_InitArrayLoadsOrRejects :
    isPow2 1 = true ∧ isPow2 128 = true ∧ isPow2 0x80000000 = true ∧
    isPow2 0 = false ∧ isPow2 100 = false ∧ isPow2 0x80000001 = false ∧ isPow2 0xFFFFFFFF = false := by
  decide

theorem witness_ConfigurationErrorExactlyOnBadSize :
    ∃ t r rest, exec (.initSize 100) State.reset = .next t ∧ t.responses = r :: rest ∧
      r.status = .errConfig := ⟨_, _, _, rfl, rfl, rfl⟩

/-- A split of 2 and 2, and the largest defined count. -/
theorem witness_WriteStoresSourceBytes :
    (Inv (block 8 6 6) ∧ WriteProceeds (block 8 6 6) true 6 1 ∧ FitsSplit (block 8 6 6) (block 8 6 6).writeIndex 4) ∧
    (Inv (block 8 3 3) ∧ WriteProceeds (block 8 3 3) true 13 0 ∧
      FitsSplit (block 8 3 3) (block 8 3 3).writeIndex 13) := by decide

theorem witness_ReadBytesFillsDestination :
    (Inv v4 ∧ ReadProceeds v4 true 6 1 4 ∧ FitsSplit v4 v4.readIndex 4) ∧
    (Inv (block 8 13 0) ∧ ReadProceeds (block 8 13 0) true 13 0 13 ∧
      FitsSplit (block 8 13 0) (block 8 13 0).readIndex 13) := by decide

theorem witness_ReadBytesNewFillsNewArray :
    Inv v4 ∧ v4.configured = true ∧ (4 : Word).toNat ≤ v4.dataLength.toNat ∧ FitsSplit v4 v4.readIndex 4 := by
  decide

/-- One byte more than there is, and the most. -/
theorem witness_ReadBytesNewShortHandsBackArbitraryBytes :
    v4.configured = true ∧ v4.dataLength.toNat < (5 : Word).toNat ∧
      v4.dataLength.toNat < (0xFFFFFFFF : Word).toNat := by decide

/-- Each cause of a silent no-op; and a command that is none. -/
theorem witness_SilentNoopChangesNothing :
    NoopCase (.write false 0 0 3) v4 ∧ NoopCase (.write true 0 0 0) v4 ∧ NoopCase (.write true 3 4 0) v4 ∧
    NoopCase (.readBytes false 0 0 2) v4 ∧ NoopCase (.readBytes true 4 5 0) v4 ∧
    NoopCase (.readBytes true 4 0 5) v4 ∧ NoopCase (.readBytesNew 5) v4 ∧
    (¬ NoopCase .capacity v4 ∧ ∃ t r rest, exec .capacity v4 = .next t ∧ t.responses = r :: rest) := by
  refine ⟨.inl rfl, .inr (.inl rfl), .inr (.inr ?_), .inl rfl, .inr (.inl ?_), .inr (.inr ?_), ?_, id, _, _, _, rfl, rfl⟩
  · decide
  · decide
  · decide
  · show v4.dataLength.toNat < (5 : Word).toNat
    decide

/-- Each domain fault of the table, at its boundary. -/
theorem witness_DomainFaultsExactlyTheFour :
    Inv (block 8 3 3) ∧ FaultCase .srcRange (.write true 3 3 1) (block 8 3 3) ∧
    FaultCase .splitOverrun (.write true 14 0 14) (block 8 3 3) ∧
    FaultCase .dstRange (.readBytes true 2 0 3) v4 ∧
    FaultCase .splitOverrun (.readBytes true 17 0 17) (block 8 17 0) ∧
    FaultCase .splitOverrun (.readBytesNew 17) (block 8 17 0) ∧
    FaultCase .nullBacking (.initArray false 0) State.reset := by
  refine ⟨by decide, ⟨_, _, _, _, rfl, ?_, ?_⟩, .inl ⟨_, _, _, _, rfl, ?_, ?_, ?_⟩, ⟨_, _, _, _, rfl, ?_, ?_⟩,
    .inr (.inl ⟨_, _, _, _, rfl, ?_, ?_, ?_⟩), .inr (.inr ⟨_, rfl, ?_, ?_, ?_⟩), ⟨_, rfl⟩⟩ <;> decide

/-- Empty at index 6, a full buffer's worth of bytes. -/
theorem witness_BulkRoundTrip :
    Inv (block 8 6 6) ∧ WriteProceeds (block 8 6 6) true 9 1 ∧ (block 8 6 6).dataLength = 0 ∧
      ((8 : Word).toNat : Int) ≤ (block 8 6 6).remainingLength ∧
      (arr [0, 0, 0, 0, 0, 0, 0, 0, 0, 0, 0]).valid = true ∧
      (3 : Word).toNat + (8 : Word).toNat ≤ (arr [0, 0, 0, 0, 0, 0, 0, 0, 0, 0, 0]).length.toNat := by decide

theorem witness_CodecsReadBack :
    (Inv (block 4 3 3) ∧ (block 4 3 3).dataLength = 0 ∧ 4 ≤ (block 4 3 3).capacity.toNat) ∧
    (Inv (block 8 6 6) ∧ (block 8 6 6).dataLength = 0 ∧ 8 ≤ (block 8 6 6).capacity.toNat) := by decide

theorem witness_WriteIntIsFourWriteBytes_LongWritesAreTwoIntWrites :
    (Inv (block 1 0 0) ∧ (block 1 0 0).configured = true) ∧
    (Inv (block 4 3 0) ∧ (block 4 3 0).configured = true ∧ 4 ≤ (block 4 3 0).capacity.toNat) := by decide

theorem witness_WriteRollbackIsExact :
    (block 8 4 4).configured = true ∧ (∀ i ∈ [Instr.writeByte 1, .writeLong 2], isWriter i = true) ∧
      ∃ u, execAll (.markWriteIndex :: [.writeByte 1, .writeLong 2]) (block 8 4 4) = .next u :=
  ⟨by decide, by decide, _, rfl⟩

theorem witness_SkipWriteClaimsFreeSpace_OverwriteErrorExactlyOnOverclaim :
    (((128 : Word).toNat : Int) ≤ (block 128 0 0).remainingLength) ∧
    ((block 128 0 0).remainingLength < ((129 : Word).toNat : Int)) ∧
    ∃ t r rest, exec (.skipWriteBytes 129) (block 128 0 0) = .next t ∧ t.responses = r :: rest ∧
      r.status = .errOverwrite := ⟨by decide, by decide, _, _, _, rfl, rfl, rfl⟩

theorem witness_SkipReadDiscards :
    (5 : Word).toNat ≤ (block 8 6 1).dataLength.toNat ∧ (block 8 6 1).dataLength.toNat < (6 : Word).toNat := by
  decide

/-- A construction that changes `capacity`, and a hardware reset that clears `configured`. -/
theorem witness_ControlWrittenOnlyByConstruction :
    (∃ t, step (State.reset.withFetchWord 128 0x00000080_00000001) = .next t ∧
      t.capacity ≠ (State.reset.withFetchWord 128 0x00000080_00000001).capacity) ∧
    (∃ t, step { block 8 0 0 with inputs := [.hardwareReset] } = .next t ∧ t.configured = false) :=
  ⟨⟨_, rfl, by decide⟩, _, rfl, rfl⟩

theorem witness_CountersWrittenOnlyByTheirCommands :
    (∃ t, exec (.writeByte 1) v4 = .next t ∧ t.writeCount ≠ v4.writeCount) ∧
    (∃ t, exec .readByte v4 = .next t ∧ t.readCount ≠ v4.readCount) ∧
    (∃ t, exec .markWriteIndex v4 = .next t ∧ t.markedWriteCount ≠ v4.markedWriteCount) ∧
    (∃ t, exec .markReadIndex v4 = .next t ∧ t.markedReadCount ≠ v4.markedReadCount) :=
  ⟨⟨_, rfl, by decide⟩, ⟨_, rfl, by decide⟩, ⟨_, rfl, by decide⟩, _, rfl, by decide⟩

theorem witness_StorageWrittenOnlyByWriters :
    ∃ t, exec (.writeByte 1) v4 = .next t ∧ t.memRead 2 ≠ v4.memRead 2 := ⟨_, rfl, by decide⟩

/-- A command that answers with a status other than ST_OK; the same state and command meet `StatusesPerCommand`. -/
theorem witness_EveryCommandAnswersOnce_StatusesPerCommand :
    ∃ t r rest, exec (.skipWriteBytes 9) v4 = .next t ∧ t.responses = r :: rest ∧ r.status ≠ .ok :=
  ⟨_, _, _, rfl, rfl, by decide⟩

/-- Each duty at its boundary; and a construction that succeeds. -/
theorem witness_BoundKeptUnderHostDuty :
    (Bounded v4 ∧ ∃ t, exec (.writeInt 1) v4 = .next t) ∧ hostDuty (.writeInt 1) v4 ∧
    hostDuty (.write true 4 0 4) v4 ∧ hostDuty (.writeLong 1) (block 8 6 6) ∧ hostDuty .readInt v4 ∧
    hostDuty (.skipReadBytes 4) v4 ∧ hostDuty .resetWriteIndex { v4 with markedWriteCount := 14 } ∧
    hostDuty .resetReadIndex { v4 with markedReadCount := 2 } ∧
    ∃ t r rest, isConstruction (.initSize 8) = true ∧ exec (.initSize 8) v4 = .next t ∧
      t.responses = r :: rest ∧ r.status = .ok := by
  refine ⟨⟨by decide, _, rfl⟩, ?_, ?_, ?_, ?_, ?_, ?_, ?_, _, _, _, rfl, rfl, rfl, rfl⟩ <;>
    simp only [hostDuty] <;> decide

/-- One multiple of the capacity, and the largest. -/
theorem witness_CounterOffsetIsInvisible :
    Inv v4 ∧ isConstruction .readInt = false ∧ (8 : Word) &&& v4.mask = 0 ∧ (0xFFFFFFF8 : Word) &&& v4.mask = 0 := by
  decide

end Sys2Proof.Tests
end

/-! PROOFS of the family 00_scope: what a command that is answered leaves (R9, R84, R200, R209), and the step from a
word to the command it decodes to (R6, R7). -/

/-! ### How a decoded command comes from its word (30_encoding R88, R91) -/

namespace Sys2Proof

/-- The command a row assembles is that row's. -/
@[simp] theorem instrOp_assemble (o : Op) (w : CommandWord) : instrOp (assemble o w) = o := by
  cases o <;> rfl

/-- A decoded command's operands are its row's fields of the word. -/
theorem assemble_instrOp_of_decode {w : CommandWord} {i : Instr} (h : decode w = .ok i) :
    assemble (instrOp i) w = i := by
  obtain ⟨-, o, -, -, rfl⟩ := decode_eq_ok.1 h
  rw [instrOp_assemble]

/-- Every format asks either for a zero `L` or for a null array's length to be zero. -/
theorem formatChecks_restrict_length (f : Format) (w : CommandWord) :
    (fieldL w != 0, .lNonzero) ∈ formatChecks f w ∨
      (!arrayWellFormed (fieldAv w) (fieldL w), .nullWithLength) ∈ formatChecks f w := by
  cases f <;> simp [formatChecks]

/-- A legal word names no array with a length: AV = 0 leaves L = 0 (R53, R88). -/
theorem fieldL_eq_zero_of_decode {w : CommandWord} {i : Instr} (h : decode w = .ok i)
    (hav : fieldAv w = false) : fieldL w = 0 := by
  obtain ⟨-, o, -, hchecks, -⟩ := decode_eq_ok.1 h
  rcases formatChecks_restrict_length (opFormat o) w with hl | hnull
  · simpa using hchecks _ hl
  · simpa [arrayWellFormed, hav] using hchecks _ hnull

end Sys2Proof

namespace Sys2Proof.Machine

/-! ### The step on a legal word (00_scope R6, R7) -/

/-- The step on a legal word is the decoded command on the state with the word taken. -/
theorem step_of_decode {s : State} {w : CommandWord} {array : Memory} {rest : List Input} {i : Instr}
    (hin : s.inputs = .command w array :: rest) (hdec : decode w = .ok i) :
    step s = exec i (s.take w array rest) := by
  simp only [step, hin, hdec]

/-- A whole command word as the host's number is presented as it is. -/
theorem State.withFetchWord_toNat (s : State) (w : CommandWord) :
    s.withFetchWord 128 w.toNat = s.presentWord w := by
  rw [State.withFetchWord, Nat.mod_eq_of_lt w.isLt, BitVec.ofNat_toNat, BitVec.setWidth_eq]

/-- AV and L of a word are the array operands of the command it decodes to (20_memory R53). -/
theorem arrayFields_of_decode {w : CommandWord} {av : Bool} {len offset count : Word}
    (h : decode w = .ok (.write av len offset count) ∨ decode w = .ok (.readBytes av len offset count) ∨
      decode w = .ok (.initArray av len)) : fieldAv w = av ∧ fieldL w = len := by
  rcases h with h | h | h
  · obtain ⟨⟩ := assemble_instrOp_of_decode h
    exact ⟨rfl, rfl⟩
  · obtain ⟨⟩ := assemble_instrOp_of_decode h
    exact ⟨rfl, rfl⟩
  · obtain ⟨⟩ := assemble_instrOp_of_decode h
    exact ⟨rfl, rfl⟩

/-- Settles O5: the step's branch for a legal word, at a presented input and at the word `withFetchWord` places, with
the fields of the word read off its row. -/
theorem stepRunsDecodedCommand : Obligations.StepRunsDecodedCommand := by
  refine ⟨fun _ _ _ _ _ => step_of_decode, fun s w i hdec => ?_, fun _ _ _ _ _ => arrayFields_of_decode,
    fun _ _ => fieldL_eq_zero_of_decode⟩
  rw [State.withFetchWord_toNat]
  exact step_of_decode rfl hdec

/-! ### What a command that is answered leaves (00_scope R9, 60_exceptions R200, R209) -/

/-- If `o` is an answer to a command begun in `s`, it is one response, with no input taken and the operand array gone
back, and any status but ST_OK comes with VALUE 0 and the block of `s`. -/
def AnswersOnce (s : State) (o : Outcome) : Prop :=
  ∀ t, o = .next t →
    ∃ r, t.responses = r :: s.responses ∧ t.inputs = s.inputs ∧ t.operand = .null ∧
      (r.status ≠ .ok → r.value = 0 ∧ BlockKept s t)

/-- `u` has the inputs and responses of `s`: on the way from `s` to `u` nothing was taken and nothing answered. -/
abbrev PortsKept (s u : State) : Prop := u.responses = s.responses ∧ u.inputs = s.inputs

section
variable {s u : State}

theorem blockKept_freshArray (s : State) (count : Word) : BlockKept s (s.freshArray count) :=
  ⟨⟨rfl, rfl, rfl, rfl⟩, ⟨rfl, fun _ => rfl⟩, ⟨rfl, rfl⟩, rfl, rfl⟩

/-- Success may leave any block: the status is ST_OK. -/
theorem answersOnce_succeed {v : Long} (hports : PortsKept s u) : AnswersOnce s (succeed u v) := by
  intro t ht
  obtain ⟨hres, hin⟩ := hports
  rw [succeed_eq_next.1 ht]
  exact ⟨_, by rw [State.respond_responses, hres], hin, rfl, fun hst => absurd rfl hst⟩

/-- An error needs a state whose block is that of `s`. -/
theorem answersOnce_raise {st : Status} (hports : PortsKept s u) (hblock : BlockKept s u) :
    AnswersOnce s (raise u st) := by
  intro t ht
  obtain ⟨hres, hin⟩ := hports
  rw [raise_eq_next.1 ht]
  exact ⟨_, by rw [State.respond_responses, hres], hin, rfl, fun _ => ⟨rfl, hblock⟩⟩

/-- An error raised in the state the command began in. -/
theorem answersOnce_raise_self {st : Status} : AnswersOnce s (raise s st) :=
  answersOnce_raise ⟨rfl, rfl⟩ ⟨⟨rfl, rfl, rfl, rfl⟩, ⟨rfl, fun _ => rfl⟩, ⟨rfl, rfl⟩, rfl, rfl⟩

/-- A domain fault is no answer. -/
theorem answersOnce_faultDomain {r : Fault} : AnswersOnce s (faultDomain r) :=
  fun _ ht => absurd ht faultDomain_ne_next

theorem answersOnce_whenConfigured {body : Outcome} (hbody : AnswersOnce s body) :
    AnswersOnce s (whenConfigured s body) := by
  cases hc : s.configured with
  | true => rwa [whenConfigured_true hc]
  | false => rw [whenConfigured_false hc]; exact answersOnce_raise_self

/-- A command with no check but the not-configured one, which succeeds in a state `u` with the ports of `s`. -/
theorem answersOnce_checkedSucceed {v : Long} (hports : PortsKept s u) :
    AnswersOnce s (whenConfigured s (succeed u v)) :=
  answersOnce_whenConfigured (answersOnce_succeed hports)

theorem answersOnce_copyInAndAdvance {offset count : Word} : AnswersOnce s (copyInAndAdvance offset count s) := by
  intro t ht
  obtain ⟨m, -, rfl⟩ := copyInAndAdvance_eq_next ht
  have hsucceed : AnswersOnce s (succeed (({ s with storage := m } : State).advanceWrite count) 0) :=
    answersOnce_succeed ⟨rfl, rfl⟩
  exact hsucceed _ rfl

/-- The copy out may begin in another state, as that of `read_bytes_new` does. -/
theorem answersOnce_copyOutAndAdvance {offset count : Word} (hports : PortsKept s u) :
    AnswersOnce s (copyOutAndAdvance offset count u) := by
  intro t ht
  obtain ⟨m, -, rfl⟩ := copyOutAndAdvance_eq_next ht
  have hsucceed : AnswersOnce s (succeed ((u.fillOperand m).advanceRead count) 0) :=
    answersOnce_succeed hports
  exact hsucceed _ rfl

end

section
variable (s : State)

theorem answersOnce_execInitSize (size : Word) : AnswersOnce s (execInitSize size s) := by
  unfold execInitSize
  split_ifs
  · exact answersOnce_succeed ⟨rfl, rfl⟩
  · exact answersOnce_raise_self

theorem answersOnce_execInitArray (av : Bool) (len : Word) : AnswersOnce s (execInitArray av len s) := by
  unfold execInitArray
  split_ifs
  · exact answersOnce_faultDomain
  · exact answersOnce_succeed ⟨rfl, rfl⟩
  · exact answersOnce_raise_self

theorem answersOnce_execWrite (av : Bool) (len offset count : Word) :
    AnswersOnce s (execWrite av len offset count s) := by
  refine answersOnce_whenConfigured ?_
  split_ifs
  · exact answersOnce_raise_self
  · exact answersOnce_raise_self
  · exact answersOnce_raise_self
  · exact answersOnce_faultDomain
  · exact answersOnce_copyInAndAdvance

theorem answersOnce_execReadBytes (av : Bool) (len offset count : Word) :
    AnswersOnce s (execReadBytes av len offset count s) := by
  refine answersOnce_whenConfigured ?_
  split_ifs
  · exact answersOnce_raise_self
  · exact answersOnce_raise_self
  · exact answersOnce_raise_self
  · exact answersOnce_faultDomain
  · exact answersOnce_copyOutAndAdvance ⟨rfl, rfl⟩

theorem answersOnce_execReadBytesNew (count : Word) : AnswersOnce s (execReadBytesNew count s) := by
  refine answersOnce_whenConfigured ?_
  split_ifs
  · exact answersOnce_raise ⟨rfl, rfl⟩ (blockKept_freshArray s count)
  · exact answersOnce_copyOutAndAdvance ⟨rfl, rfl⟩

theorem answersOnce_execSkipWriteBytes (count : Word) : AnswersOnce s (execSkipWriteBytes count s) := by
  refine answersOnce_whenConfigured ?_
  split_ifs
  · exact answersOnce_raise_self
  · exact answersOnce_succeed ⟨rfl, rfl⟩

/-- The constructions, the bulk copies and `skip_write_bytes` have checks of their own; every other command succeeds
once the block is configured. -/
theorem answersOnce_exec (i : Instr) : AnswersOnce s (exec i s) := by
  cases i with
  | initSize size => exact answersOnce_execInitSize s size
  | initArray av len => exact answersOnce_execInitArray s av len
  | write av len offset count => exact answersOnce_execWrite s av len offset count
  | readBytes av len offset count => exact answersOnce_execReadBytes s av len offset count
  | readBytesNew count => exact answersOnce_execReadBytesNew s count
  | skipWriteBytes count => exact answersOnce_execSkipWriteBytes s count
  | _ => exact answersOnce_checkedSucceed ⟨rfl, rfl⟩

end

/-- Settles O53: every arm of `exec` ends in one response, in an error with the block kept, or in a domain fault. -/
theorem everyCommandAnswersOnce : Obligations.EveryCommandAnswersOnce :=
  fun i s t ht => answersOnce_exec s i t ht

end Sys2Proof.Machine

/-! PROOFS of the family 10_state: index arithmetic and the signed free space (R30, R36), what a command that is
answered does to the state and from it the invariant (R21 to R23), the writers of each register and of storage (R23,
R24, R174) and the conditional bound (R33), and the absolute counters as hidden state (R31, R38). -/

namespace Sys2Proof.Machine

/-! ### Index arithmetic and the signed free space (10_state R30, R36) -/

/-- What `IsPow2` picks out are powers of two of 32 bits (46_construction R192). -/
theorem toNat_eq_two_pow_of_isPow2 {n : Word} (h : isPow2 n = true) : ∃ j ≤ 31, n.toNat = 2 ^ j := by
  obtain ⟨hne, hand⟩ : n ≠ 0 ∧ n &&& (n - 1) = 0 := by simpa [isPow2] using h
  have hpos : n.toNat ≠ 0 := fun h0 => hne (BitVec.eq_of_toNat_eq h0)
  have hsub : (n - 1).toNat = n.toNat - 1 := by bv_omega
  have hbits : n.toNat &&& (n.toNat - 1) = 0 := by
    rw [← hsub, ← BitVec.toNat_and, hand]
    rfl
  obtain ⟨j, hj⟩ := (Nat.and_sub_one_eq_zero_iff_isPowerOfTwo hpos).1 hbits
  have hlt : 2 ^ j < 2 ^ 32 := hj ▸ n.isLt
  have hj32 : j < 32 := (Nat.pow_lt_pow_iff_right (by decide)).1 hlt
  exact ⟨j, Nat.le_of_lt_succ hj32, hj⟩

/-- The invariant of a configured block, in the form the laws of positions ask for. -/
theorem exists_capacity_eq_two_pow {s : State} (hinv : Inv s) (hc : s.configured = true) :
    ∃ j ≤ 31, s.capacity.toNat = 2 ^ j ∧ s.mask = s.capacity - 1 := by
  obtain ⟨hpow, hmask⟩ := hinv.1 hc
  obtain ⟨j, hj, hcap⟩ := toNat_eq_two_pow_of_isPow2 hpow
  exact ⟨j, hj, hcap, hmask⟩

/-- Every counter's place is one of storage (R50). -/
theorem indexOf_lt_capacity {s : State} (hinv : Inv s) (hc : s.configured = true) (c : Word) :
    (indexOf c s.mask).toNat < s.capacity.toNat := by
  obtain ⟨j, -, hcap, hmask⟩ := exists_capacity_eq_two_pow hinv hc
  rw [indexOf, toNat_and_mask hcap hmask, hcap]
  exact Nat.mod_lt _ Nat.one_le_two_pow

/-- The mask may be applied before an addition as well as after it: 2^j divides 2^32 (R36). -/
theorem and_mask_add {cap mask : Word} {j : Nat} (hj : j ≤ 31) (hcap : cap.toNat = 2 ^ j)
    (hmask : mask = cap - 1) (c k : Word) : ((c &&& mask) + k) &&& mask = (c + k) &&& mask := by
  have hd : 2 ^ j ∣ 2 ^ 32 := Nat.pow_dvd_pow 2 (by omega)
  apply BitVec.eq_of_toNat_eq
  simp only [toNat_and_mask hcap hmask, BitVec.toNat_add, Nat.mod_mod_of_dvd _ hd, Nat.mod_add_mod]

/-- Settles O16: `capacity` is a power of two, so the mask keeps the remainder. -/
theorem indexIsCounterModCapacity : Obligations.IndexIsCounterModCapacity := by
  intro s c hinv hc
  obtain ⟨j, hj, hcap, hmask⟩ := exists_capacity_eq_two_pow hinv hc
  exact ⟨by rw [toNat_and_mask hcap hmask, hcap], and_mask_add hj hcap hmask c⟩

/-- `skip_write_bytes` of more than the free space is an error (45_skip R180). -/
theorem exec_skipWriteBytes_of_remainingLength_lt {s : State} {count : Word} (hc : s.configured = true)
    (h : s.remainingLength < (count.toNat : Int)) :
    exec (.skipWriteBytes count) s = .next (s.respond .errOverwrite 0) :=
  (whenConfigured_true hc _).trans (if_pos h)

/-- Settles O18: the capacity lies in 1 .. 2^31 and `data_length` below 2^32, and no count is negative. -/
theorem remainingLengthIsSigned : Obligations.RemainingLengthIsSigned := by
  intro s hinv hc
  obtain ⟨j, hj, hcap, -⟩ := exists_capacity_eq_two_pow hinv hc
  have hpos : 1 ≤ s.capacity.toNat := hcap ▸ Nat.one_le_two_pow
  have hmax : s.capacity.toNat ≤ 2 ^ 31 := hcap ▸ Nat.pow_le_pow_right (by decide) hj
  have hlen : s.dataLength.toNat < 2 ^ 32 := s.dataLength.isLt
  have hrem : s.remainingLength = (s.capacity.toNat : Int) - (s.dataLength.toNat : Int) := rfl
  refine ⟨rfl, by omega, by omega, by omega, fun hover count => ?_⟩
  exact ⟨_, exec_skipWriteBytes_of_remainingLength_lt hc (by omega), blockKept_respond _ _ _,
    answeredPlain_respond _ _ _⟩

/-! ### Memories inside the capacity (10_state R23, 20_memory R50) -/

/-- What the invariant asks of the storage of a configured block of capacity `cap`. -/
def StorageFits (cap : Word) (m : Memory) : Prop := Memory.wf m ∧ ∀ c ∈ m, c.1 < cap.toNat

theorem storageFits_nil (cap : Word) : StorageFits cap [] := ⟨Memory.wf_nil, nofun⟩

theorem storageFits_of_inv {s : State} (hinv : Inv s) : StorageFits s.capacity s.storage := by
  obtain ⟨-, hwf, hbelow, -⟩ := hinv
  exact ⟨hwf, fun c hcell => (hbelow c hcell).2⟩

theorem storageFits_storeRun {cap : Word} {pos : Nat → Nat} {b : Nat → Byte} {n : Nat} {m : Memory}
    (hm : StorageFits cap m) (hpos : ∀ k < n, pos k < cap.toNat) : StorageFits cap (storeRun pos b n m) := by
  obtain ⟨hwf, hbelow⟩ := hm
  refine ⟨storeRun_wf pos b n hwf, fun c hcell => ?_⟩
  rcases storeRun_mem hcell with ⟨k, hk, heq⟩ | hold
  · rw [heq]
    exact hpos k hk
  · exact hbelow c hold

/-- CopyIn stores at the tail below `capacity` and at a head no longer than storage. -/
theorem storageFits_copyIn {s : State} {off count : Nat} {m : Memory} (hm : StorageFits s.capacity s.storage)
    (hcopy : copyIn off count s = .ok m) : StorageFits s.capacity m := by
  rcases copyIn_cases off count s with ⟨hlt, e⟩ | ⟨first, rem, hfirst, -, hrem, e⟩ | ⟨-, e⟩
  · obtain rfl : _ = m := Except.ok.inj (e.symm.trans hcopy)
    exact storageFits_storeRun hm fun k hk => by omega
  · obtain rfl : _ = m := Except.ok.inj (e.symm.trans hcopy)
    refine storageFits_storeRun (storageFits_storeRun hm fun k hk => ?_) fun k hk => ?_
    · omega
    · omega
  · exact nomatch e.symm.trans hcopy

/-- CopyOut keeps the operand array canonical. -/
theorem wf_copyOut {s : State} {off count : Nat} {m : Memory} (hwf : Memory.wf s.operand.bytes)
    (hcopy : copyOut off count s = .ok m) : Memory.wf m := by
  rcases copyOut_cases off count s with ⟨-, e⟩ | ⟨first, rem, -, -, -, e⟩ | ⟨-, e⟩
  · obtain rfl : _ = m := Except.ok.inj (e.symm.trans hcopy)
    exact storeRun_wf _ _ _ hwf
  · obtain rfl : _ = m := Except.ok.inj (e.symm.trans hcopy)
    exact storeRun_wf _ _ _ (storeRun_wf _ _ _ hwf)
  · exact nomatch e.symm.trans hcopy

/-! ### What a command that is answered does to the state -/

/-- How many bytes a command stores, fetches or skips; 0 where it does none of these. -/
def bytesMoved : Instr → Word
  | .write _ _ _ count | .readBytes _ _ _ count | .readBytesNew count
  | .skipWriteBytes count | .skipReadBytes count => count
  | .writeByte _ | .readByte => 1
  | .writeInt _ | .readInt | .writeIntLe _ | .readIntLe => 4
  | .writeLong _ | .readLong | .writeLongLe _ | .readLongLe => 8
  | .initSize _ | .initArray _ _ | .capacity | .dataLength | .remainingLength | .readIndex | .writeIndex
  | .markWriteIndex | .resetWriteIndex | .markReadIndex | .resetReadIndex => 0

/-- The states command `i` can leave of `s` before its response, one constructor per way to write the registers and
storage (10_state R21 to R25). A command may change the operand array and the number of arrays besides. -/
inductive Effect (s : State) (i : Instr) : State → Prop
  | keep (a : OperandArray) (n : Nat) (ha : Memory.wf s.operand.bytes → Memory.wf a.bytes) :
      Effect s i { s with operand := a, arrays := n }
  | construct {size : Word} {m : Memory} (hi : isConstruction i = true) (hsize : isPow2 size = true)
      (hm : StorageFits size m) : Effect s i (s.construct size m)
  | store {m : Memory} (hi : isWriter i = true) (hc : s.configured = true)
      (hm : Inv s → StorageFits s.capacity m) :
      Effect s i (({ s with storage := m } : State).advanceWrite (bytesMoved i))
  | fetch (a : OperandArray) (n : Nat) (hi : isReader i = true)
      (ha : Memory.wf s.operand.bytes → Memory.wf a.bytes)
      (hlen : hostDuty i s → (bytesMoved i).toNat ≤ s.dataLength.toNat) :
      Effect s i (({ s with operand := a, arrays := n } : State).advanceRead (bytesMoved i))
  | skipWrite (hi : instrOp i = .skipWriteBytes) (hfree : ((bytesMoved i).toNat : Int) ≤ s.remainingLength) :
      Effect s i (s.advanceWrite (bytesMoved i))
  | skipRead (hi : instrOp i = .skipReadBytes) (hlen : hostDuty i s → (bytesMoved i).toNat ≤ s.dataLength.toNat) :
      Effect s i (s.advanceRead (bytesMoved i))
  | markWrite (hi : i = .markWriteIndex) : Effect s i { s with markedWriteCount := s.writeCount }
  | resetWrite (hi : i = .resetWriteIndex) : Effect s i { s with writeCount := s.markedWriteCount }
  | markRead (hi : i = .markReadIndex) : Effect s i { s with markedReadCount := s.readCount }
  | resetRead (hi : i = .resetReadIndex) : Effect s i { s with readCount := s.markedReadCount }

/-- If `o` is an answer, it is a response given in a state with `P`. -/
def Leaves (P : State → Prop) (o : Outcome) : Prop :=
  ∀ t, o = .next t → ∃ u st v, P u ∧ t = u.respond st v

section
variable {P : State → Prop} {s u : State} {i : Instr}

theorem leaves_succeed {v : Long} (hu : P u) : Leaves P (succeed u v) :=
  fun _ ht => ⟨u, _, _, hu, succeed_eq_next.1 ht⟩

theorem leaves_raise {st : Status} (hu : P u) : Leaves P (raise u st) :=
  fun _ ht => ⟨u, _, _, hu, raise_eq_next.1 ht⟩

theorem leaves_faultDomain {r : Fault} : Leaves P (faultDomain r) :=
  fun _ ht => absurd ht faultDomain_ne_next

theorem leaves_whenConfigured {body : Outcome} (hs : P s) (hbody : s.configured = true → Leaves P body) :
    Leaves P (whenConfigured s body) := by
  cases hc : s.configured with
  | true => rw [whenConfigured_true hc]; exact hbody hc
  | false => rw [whenConfigured_false hc]; exact leaves_raise hs

/-- Nothing is changed. -/
theorem effect_self : Effect s i s := .keep s.operand s.arrays id

/-- A command with no check but the not-configured one. -/
theorem effect_checkedSucceed {v : Long} (hu : Effect s i u) :
    Leaves (Effect s i) (whenConfigured s (succeed u v)) :=
  leaves_whenConfigured effect_self fun _ => leaves_succeed hu

/-- Positions of masked accesses are positions of storage, so a masked run fits. -/
theorem effect_writeMasked {n : Nat} {b : Nat → Byte} (hi : isWriter i = true)
    (hn : bytesMoved i = BitVec.ofNat 32 n) : Leaves (Effect s i) (whenConfigured s (writeMasked n b s)) := by
  refine leaves_whenConfigured effect_self fun hc => leaves_succeed (hn ▸ .store hi hc fun hinv => ?_)
  obtain ⟨j, hj, hcap, hmask⟩ := exists_capacity_eq_two_pow hinv hc
  exact storageFits_storeRun (storageFits_of_inv hinv) fun k _ => position_lt_capacity hj hcap hmask _ k

theorem effect_readMasked {n : Nat} {v : Long} (hi : isReader i = true) (hn : bytesMoved i = BitVec.ofNat 32 n)
    (hlen : hostDuty i s → (bytesMoved i).toNat ≤ s.dataLength.toNat) :
    Leaves (Effect s i) (whenConfigured s (readMasked n v s)) :=
  effect_checkedSucceed (hn ▸ .fetch s.operand s.arrays hi id hlen)

/-- A construction that is answered replaces the block or is an error (46_construction R190, R191). -/
theorem construction_eq_next {t : State} (hi : isConstruction i = true) (h : exec i s = .next t) :
    (∃ size m, isPow2 size = true ∧ StorageFits size m ∧ t = (s.construct size m).respond .ok 0) ∨
      t = s.respond .errConfig 0 := by
  cases i with
  | initSize size =>
    simp only [exec, execInitSize] at h
    split_ifs at h with hsize
    · exact .inl ⟨size, [], hsize, storageFits_nil size, succeed_eq_next.1 h⟩
    · exact .inr (raise_eq_next.1 h)
  | initArray av len =>
    simp only [exec, execInitArray] at h
    split_ifs at h with hav hsize
    · exact absurd h faultDomain_ne_next
    · exact .inl ⟨len, _, hsize, storageFits_storeRun (storageFits_nil len) fun _ hk => hk, succeed_eq_next.1 h⟩
    · exact .inr (raise_eq_next.1 h)
  | _ => exact absurd hi Bool.false_ne_true

theorem effect_construction (hi : isConstruction i = true) : Leaves (Effect s i) (exec i s) := by
  intro t ht
  rcases construction_eq_next hi ht with ⟨size, m, hsize, hm, rfl⟩ | rfl
  · exact ⟨_, _, _, .construct hi hsize hm, rfl⟩
  · exact ⟨_, _, _, effect_self, rfl⟩

end

section
variable (s : State)

theorem effect_execWrite (av : Bool) (len offset count : Word) :
    Leaves (Effect s (.write av len offset count)) (execWrite av len offset count s) := by
  refine leaves_whenConfigured effect_self fun hc => ?_
  split_ifs
  · exact leaves_raise effect_self
  · exact leaves_raise effect_self
  · exact leaves_raise effect_self
  · exact leaves_faultDomain
  · intro t ht
    obtain ⟨m, hcopy, rfl⟩ := copyInAndAdvance_eq_next ht
    exact ⟨_, _, _, .store rfl hc fun hinv => storageFits_copyIn (storageFits_of_inv hinv) hcopy, rfl⟩

theorem effect_execReadBytes (av : Bool) (len offset count : Word) :
    Leaves (Effect s (.readBytes av len offset count)) (execReadBytes av len offset count s) := by
  refine leaves_whenConfigured effect_self fun _ => ?_
  split_ifs with hav hoffset hshort
  · exact leaves_raise effect_self
  · exact leaves_raise effect_self
  · exact leaves_raise effect_self
  · exact leaves_faultDomain
  · intro t ht
    obtain ⟨m, hcopy, rfl⟩ := copyOutAndAdvance_eq_next ht
    exact ⟨_, _, _, .fetch _ _ rfl (fun hwf => wf_copyOut hwf hcopy) fun _ => Nat.not_lt.1 hshort, rfl⟩

theorem effect_execReadBytesNew (count : Word) :
    Leaves (Effect s (.readBytesNew count)) (execReadBytesNew count s) := by
  refine leaves_whenConfigured effect_self fun _ => ?_
  split_ifs with hshort
  · exact leaves_raise (.keep _ _ fun _ => Memory.wf_nil)
  · intro t ht
    obtain ⟨m, hcopy, rfl⟩ := copyOutAndAdvance_eq_next ht
    exact ⟨_, _, _, .fetch _ _ rfl (fun _ => wf_copyOut Memory.wf_nil hcopy) fun _ => Nat.not_lt.1 hshort, rfl⟩

theorem effect_execWriteByte (value : Byte) : Leaves (Effect s (.writeByte value)) (execWriteByte value s) := by
  refine leaves_whenConfigured effect_self fun hc => leaves_succeed (.store rfl hc fun hinv => ?_)
  exact storageFits_storeRun (pos := fun _ => s.writeIndex.toNat) (b := fun _ => value) (n := 1)
    (storageFits_of_inv hinv) fun _ _ => indexOf_lt_capacity hinv hc s.writeCount

theorem effect_execSkipWriteBytes (count : Word) :
    Leaves (Effect s (.skipWriteBytes count)) (execSkipWriteBytes count s) := by
  refine leaves_whenConfigured effect_self fun _ => ?_
  split_ifs with hover
  · exact leaves_raise effect_self
  · exact leaves_succeed (.skipWrite rfl (not_lt.1 hover))

/-- Each command, answered, does one of the things of `Effect` and then responds. -/
theorem effect_exec (i : Instr) : Leaves (Effect s i) (exec i s) := by
  cases i with
  | initSize | initArray => exact effect_construction rfl
  | capacity | dataLength | remainingLength | readIndex | writeIndex => exact effect_checkedSucceed effect_self
  | write av len offset count => exact effect_execWrite s av len offset count
  | readBytes av len offset count => exact effect_execReadBytes s av len offset count
  | readBytesNew count => exact effect_execReadBytesNew s count
  | writeByte value => exact effect_execWriteByte s value
  | readByte => exact effect_checkedSucceed (.fetch s.operand s.arrays rfl id id)
  | writeInt | writeIntLe | writeLong | writeLongLe => exact effect_writeMasked rfl rfl
  | readInt | readIntLe | readLong | readLongLe => exact effect_readMasked rfl rfl id
  | markWriteIndex => exact effect_checkedSucceed (.markWrite rfl)
  | resetWriteIndex => exact effect_checkedSucceed (.resetWrite rfl)
  | markReadIndex => exact effect_checkedSucceed (.markRead rfl)
  | resetReadIndex => exact effect_checkedSucceed (.resetRead rfl)
  | skipWriteBytes count => exact effect_execSkipWriteBytes s count
  | skipReadBytes count => exact effect_checkedSucceed (.skipRead rfl id)

end

/-! ### What a step can do -/

/-- A step is idle, takes a hardware reset, answers an illegal word, or runs a command on the state with its word
taken. -/
theorem step_eq_next {s t : State} (h : step s = .next t) :
    (s.inputs = [] ∧ t = s) ∨
    (∃ rest, s.inputs = .hardwareReset :: rest ∧ t = s.hardwareReset rest) ∨
    (∃ w array rest, s.inputs = .command w array :: rest ∧ t = (s.take w array rest).respond .illegal 0) ∨
    (∃ w array rest i, s.inputs = .command w array :: rest ∧ decode w = .ok i ∧
      exec i (s.take w array rest) = .next t) := by
  unfold step at h
  split at h
  next hin => exact .inl ⟨hin, (Host.Outcome.next.inj h).symm⟩
  next rest hin => exact .inr (.inl ⟨rest, hin, (Host.Outcome.next.inj h).symm⟩)
  next w array rest hin =>
    split at h
    next => exact .inr (.inr (.inl ⟨w, array, rest, hin, raise_eq_next.1 h⟩))
    next i hdec => exact .inr (.inr (.inr ⟨w, array, rest, i, hin, hdec, h⟩))

/-! ### The invariant (10_state R21, R22, R23, 20_memory R50) -/

/-- Settles O8: at reset the block is not configured and every memory is empty. -/
theorem resetMeetsInvariant : Obligations.ResetMeetsInvariant :=
  ⟨rfl, rfl, nofun, State.reset_storage_wf, nofun, Memory.wf_nil, nofun, nofun⟩

theorem inv_hardwareReset {s : State} {rest : List Input} (hinv : Inv s)
    (hin : s.inputs = .hardwareReset :: rest) : Inv (s.hardwareReset rest) := by
  obtain ⟨-, -, -, -, hinputs, hresponses⟩ := hinv
  exact ⟨nofun, Memory.wf_nil, nofun, Memory.wf_nil,
    fun x hx => hinputs x (hin ▸ List.mem_cons_of_mem _ hx), hresponses⟩

/-- The array taken was canonical while it waited. -/
theorem inv_take {s : State} {w : CommandWord} {array : Memory} {rest : List Input} (hinv : Inv s)
    (hin : s.inputs = .command w array :: rest) : Inv (s.take w array rest) := by
  obtain ⟨hcontrol, hwf, hbelow, -, hinputs, hresponses⟩ := hinv
  exact ⟨hcontrol, hwf, hbelow, hinputs (.command w array) (hin ▸ List.mem_cons_self),
    fun x hx => hinputs x (hin ▸ List.mem_cons_of_mem _ hx), hresponses⟩

/-- Every effect keeps the invariant: the two that write storage bring one that fits, and the others write only
registers the invariant does not speak of, or an operand array that stays canonical. -/
theorem inv_effect {s u : State} {i : Instr} (hinv : Inv s) (h : Effect s i u) : Inv u := by
  have hall := hinv
  obtain ⟨hcontrol, hwf, hbelow, hoperand, hinputs, hresponses⟩ := hinv
  cases h with
  | keep a n ha => exact ⟨hcontrol, hwf, hbelow, ha hoperand, hinputs, hresponses⟩
  | construct _ hsize hm =>
    obtain ⟨hmwf, hmbelow⟩ := hm
    exact ⟨fun _ => ⟨hsize, rfl⟩, hmwf, fun c hcell => ⟨rfl, hmbelow c hcell⟩, hoperand, hinputs, hresponses⟩
  | store _ hc hm =>
    obtain ⟨hmwf, hmbelow⟩ := hm hall
    exact ⟨hcontrol, hmwf, fun c hcell => ⟨hc, hmbelow c hcell⟩, hoperand, hinputs, hresponses⟩
  | fetch a n _ ha => exact ⟨hcontrol, hwf, hbelow, ha hoperand, hinputs, hresponses⟩
  | skipWrite | skipRead | markWrite | resetWrite | markRead | resetRead => exact hall

theorem inv_exec {s t : State} {i : Instr} (hinv : Inv s) (h : exec i s = .next t) : Inv t := by
  obtain ⟨u, st, v, heffect, rfl⟩ := effect_exec s i t h
  exact inv_respond (inv_effect hinv heffect) st v

/-- Settles O9: along the kinds of step, with `Effect` for a command. -/
theorem stepKeepsInvariant : Obligations.StepKeepsInvariant := by
  intro s t hinv hstep
  rcases step_eq_next hstep with ⟨-, rfl⟩ | ⟨rest, hin, rfl⟩ | ⟨w, array, rest, hin, rfl⟩ |
    ⟨w, array, rest, i, hin, -, hexec⟩
  · exact hinv
  · exact inv_hardwareReset hinv hin
  · exact inv_respond (inv_take hinv hin) _ _
  · exact inv_exec (inv_take hinv hin) hexec

/-! ### Who writes what (10_state R21 to R26, 44_mark_reset R174, 70_reset R233) -/

/-- Only a construction writes the control registers. -/
theorem controlKept_exec {s t : State} {i : Instr} (hi : isConstruction i = false) (h : exec i s = .next t) :
    ControlKept s t := by
  obtain ⟨u, st, v, heffect, rfl⟩ := effect_exec s i t h
  cases heffect with
  | construct hi' => exact absurd hi' (by simp [hi])
  | keep | store | fetch | skipWrite | skipRead | markWrite | resetWrite | markRead | resetRead =>
    exact ⟨rfl, rfl, rfl, rfl⟩

/-- No command clears `configured`. -/
theorem configured_exec {s t : State} {i : Instr} (hc : s.configured = true) (h : exec i s = .next t) :
    t.configured = true := by
  obtain ⟨u, st, v, heffect, rfl⟩ := effect_exec s i t h
  cases heffect with
  | construct => rfl
  | keep | store | fetch | skipWrite | skipRead | markWrite | resetWrite | markRead | resetRead => exact hc

theorem not_controlChanged {s t : State} (h : ControlKept s t) :
    ¬ (t.capacity ≠ s.capacity ∨ t.mask ≠ s.mask ∨ t.configured ≠ s.configured) := by
  obtain ⟨hconfigured, hcapacity, hmask, -⟩ := h
  simp [hconfigured, hcapacity, hmask]

/-- Settles O50: along the kinds of step. -/
theorem controlWrittenOnlyByConstruction : Obligations.ControlWrittenOnlyByConstruction := by
  intro s t hstep
  rcases step_eq_next hstep with ⟨-, rfl⟩ | ⟨rest, hin, -⟩ | ⟨w, array, rest, -, rfl⟩ |
    ⟨w, array, rest, i, hin, hdec, hexec⟩
  · exact ⟨fun hchanged => absurd hchanged (not_controlChanged ⟨rfl, rfl, rfl, rfl⟩),
      fun hc hnot => absurd (hnot.symm.trans hc) Bool.false_ne_true⟩
  · exact ⟨fun _ => .inl ⟨rest, hin⟩, fun _ _ => ⟨rest, hin⟩⟩
  · exact ⟨fun hchanged => absurd hchanged (not_controlChanged ⟨rfl, rfl, rfl, rfl⟩),
      fun hc hnot => absurd (hnot.symm.trans hc) Bool.false_ne_true⟩
  · refine ⟨fun hchanged => ?_, fun hc hnot => ?_⟩
    · cases hi : isConstruction i with
      | true => exact .inr ⟨w, array, rest, i, hin, hdec, hi⟩
      | false =>
        have hkept := controlKept_exec hi hexec
        exact absurd hchanged (not_controlChanged hkept)
    · have hkept := configured_exec (s := s.take w array rest) hc hexec
      exact absurd (hnot.symm.trans hkept) Bool.false_ne_true

/-- Settles O51: each effect writes the counters and marks of its own commands. -/
theorem countersWrittenOnlyByTheirCommands : Obligations.CountersWrittenOnlyByTheirCommands := by
  intro i s t h
  obtain ⟨u, st, v, heffect, rfl⟩ := effect_exec s i t h
  cases heffect with
  | keep => simp
  | construct hi | store hi | fetch _ _ hi | skipWrite hi | skipRead hi | markWrite hi | resetWrite hi
  | markRead hi | resetRead hi => simp [hi]

/-- Settles O52: only the effects `store` and `construct` bring another storage. -/
theorem storageWrittenOnlyByWriters : Obligations.StorageWrittenOnlyByWriters := by
  intro i s t p h hchanged
  obtain ⟨u, st, v, heffect, rfl⟩ := effect_exec s i t h
  cases heffect with
  | construct hi => exact .inr hi
  | store hi => exact .inl hi
  | keep | fetch | skipWrite | skipRead | markWrite | resetWrite | markRead | resetRead =>
    exact absurd rfl hchanged

/-! ### The conditional bound (10_state R33) -/

/-- The duty of the write family is space for what it stores. -/
theorem bytesMoved_le_of_writer {i : Instr} {s : State} (hi : isWriter i = true) (hduty : hostDuty i s) :
    ((bytesMoved i).toNat : Int) ≤ s.remainingLength := by
  cases i with
  | write | writeByte | writeInt | writeIntLe | writeLong | writeLongLe => exact hduty
  | _ => exact absurd hi Bool.false_ne_true

section
variable {s : State} {n : Word}

theorem bounded_advanceWrite (hfree : (n.toNat : Int) ≤ s.remainingLength) : Bounded (s.advanceWrite n) := by
  have hlen : (s.advanceWrite n).dataLength = s.dataLength + n := by
    simp only [State.dataLength, State.advanceWrite_writeCount, State.advanceWrite_readCount]
    bv_omega
  have hrem : s.remainingLength = (s.capacity.toNat : Int) - (s.dataLength.toNat : Int) := rfl
  calc (s.advanceWrite n).dataLength.toNat
      ≤ s.dataLength.toNat + n.toNat := by rw [hlen, BitVec.toNat_add]; exact Nat.mod_le _ _
    _ ≤ s.capacity.toNat := by omega

theorem bounded_advanceRead (hb : Bounded s) (hn : n.toNat ≤ s.dataLength.toNat) : Bounded (s.advanceRead n) := by
  have hlen : (s.advanceRead n).dataLength = s.dataLength - n := by
    simp only [State.dataLength, State.advanceRead_writeCount, State.advanceRead_readCount]
    bv_omega
  calc (s.advanceRead n).dataLength.toNat
      = s.dataLength.toNat - n.toNat := by rw [hlen, BitVec.toNat_sub_of_le hn]
    _ ≤ s.capacity.toNat := (Nat.sub_le _ _).trans hb

theorem bounded_construct (s : State) (n : Word) (m : Memory) : Bounded (s.construct n m) := by
  simp [Bounded, State.dataLength]

end

/-- An effect adds to the unread data only what the duty, or the check of `skip_write_bytes`, leaves room for. -/
theorem bounded_effect {s u : State} {i : Instr} (hb : Bounded s) (hduty : hostDuty i s) (h : Effect s i u) :
    Bounded u := by
  cases h with
  | keep | markWrite | markRead => exact hb
  | construct => exact bounded_construct _ _ _
  | store hi => exact bounded_advanceWrite (bytesMoved_le_of_writer hi hduty)
  | fetch _ _ _ _ hlen => exact bounded_advanceRead hb (hlen hduty)
  | skipWrite _ hfree => exact bounded_advanceWrite hfree
  | skipRead _ hlen => exact bounded_advanceRead hb (hlen hduty)
  | resetWrite hi | resetRead hi =>
    subst hi
    exact hduty

/-- Settles O55: by the effects, and after a construction answered ST_OK the block is empty. -/
theorem boundKeptUnderHostDuty : Obligations.BoundKeptUnderHostDuty := by
  constructor
  · intro i s t hb hduty h
    obtain ⟨u, st, v, heffect, rfl⟩ := effect_exec s i t h
    exact bounded_effect (u := u) hb hduty heffect
  · intro i s t r rest hi h hres hok
    rcases construction_eq_next hi h with ⟨size, m, -, -, rfl⟩ | rfl
    · exact bounded_construct s size m
    · obtain ⟨rfl, -⟩ := List.cons.inj hres
      exact nomatch hok

/-! ### Counters moved together (10_state R31, R38) -/

/-- Adding `d` to a counter does not move its place in storage. -/
def ShiftHidden (d mask : Word) : Prop := ∀ c : Word, indexOf (c + d) mask = indexOf c mask

/-- A multiple of the capacity is masked away (R36). -/
theorem shiftHidden_of_inv {s : State} {d : Word} (hinv : Inv s) (hd : d &&& s.mask = 0)
    (hc : s.configured = true) : ShiftHidden d s.mask := by
  obtain ⟨j, hj, hcap, hmask⟩ := exists_capacity_eq_two_pow hinv hc
  intro c
  calc (c + d) &&& s.mask
      = ((d &&& s.mask) + c) &&& s.mask := by rw [and_mask_add hj hcap hmask, BitVec.add_comm]
    _ = c &&& s.mask := by rw [hd, zero_add]

section
variable (s : State) (d : Word)

/-- R38: the difference of the counters does not see what is added to both. -/
theorem State.offset_dataLength : (s.offset d).dataLength = s.dataLength := by
  show (s.writeCount + d) - (s.readCount + d) = s.writeCount - s.readCount
  bv_omega

theorem State.offset_remainingLength : (s.offset d).remainingLength = s.remainingLength := by
  rw [State.remainingLength, State.offset_dataLength]
  rfl

theorem State.offset_advanceWrite (n : Word) : (s.offset d).advanceWrite n = (s.advanceWrite n).offset d := by
  simp only [State.advanceWrite, State.offset, add_right_comm]

theorem State.offset_advanceRead (n : Word) : (s.offset d).advanceRead n = (s.advanceRead n).offset d := by
  simp only [State.advanceRead, State.offset, add_right_comm]

theorem succeed_advanceWrite_offset (n : Word) (v : Long) :
    succeed ((s.offset d).advanceWrite n) v = offsetOutcome d (succeed (s.advanceWrite n) v) := by
  rw [State.offset_advanceWrite]
  rfl

theorem succeed_advanceRead_offset (n : Word) (v : Long) :
    succeed ((s.offset d).advanceRead n) v = offsetOutcome d (succeed (s.advanceRead n) v) := by
  rw [State.offset_advanceRead]
  rfl

end

section
variable {s : State} {d : Word}

theorem whenConfigured_offset {body body' : Outcome}
    (h : s.configured = true → body' = offsetOutcome d body) :
    whenConfigured (s.offset d) body' = offsetOutcome d (whenConfigured s body) := by
  cases hc : s.configured with
  | true => rw [whenConfigured_true hc, whenConfigured_true (s := s.offset d) hc, h hc]
  | false =>
    rw [whenConfigured_false hc, whenConfigured_false (s := s.offset d) hc]
    rfl

variable (hd : ShiftHidden d s.mask)
include hd

theorem State.offset_writeIndex : (s.offset d).writeIndex = s.writeIndex := hd s.writeCount

theorem State.offset_readIndex : (s.offset d).readIndex = s.readIndex := hd s.readCount

theorem State.offset_maskedByte : (s.offset d).maskedByte = s.maskedByte := by
  funext k
  rw [State.maskedByte, State.offset_readIndex hd]
  rfl

theorem copyIn_offset (off count : Nat) : copyIn off count (s.offset d) = copyIn off count s := by
  rw [copyIn, State.offset_writeIndex hd]
  rfl

theorem copyOut_offset (off count : Nat) : copyOut off count (s.offset d) = copyOut off count s := by
  rw [copyOut, State.offset_readIndex hd]
  rfl

theorem writeMasked_offset (n : Nat) (b : Nat → Byte) :
    writeMasked n b (s.offset d) = offsetOutcome d (writeMasked n b s) := by
  rw [writeMasked, State.offset_writeIndex hd]
  exact succeed_advanceWrite_offset { s with storage := storeRun (position s.writeIndex s.mask) b n s.storage } d _ _

omit hd in
theorem readMasked_offset (n : Nat) (v : Long) :
    readMasked n v (s.offset d) = offsetOutcome d (readMasked n v s) :=
  succeed_advanceRead_offset s d _ v

theorem copyInAndAdvance_offset (offset count : Word) :
    copyInAndAdvance offset count (s.offset d) = offsetOutcome d (copyInAndAdvance offset count s) := by
  rw [copyInAndAdvance, copyInAndAdvance, copyIn_offset hd]
  cases copyIn offset.toNat count.toNat s with
  | error reason => rfl
  | ok m => exact succeed_advanceWrite_offset { s with storage := m } d count 0

theorem copyOutAndAdvance_offset (offset count : Word) :
    copyOutAndAdvance offset count (s.offset d) = offsetOutcome d (copyOutAndAdvance offset count s) := by
  rw [copyOutAndAdvance, copyOutAndAdvance, copyOut_offset hd]
  cases copyOut offset.toNat count.toNat s with
  | error reason => rfl
  | ok m => exact succeed_advanceRead_offset (s.fillOperand m) d count 0

end

/-- With every place in storage and both lengths unmoved, each command that is no construction does the same. -/
theorem exec_offset {s : State} {d : Word} {i : Instr} (hi : isConstruction i = false)
    (hd : s.configured = true → ShiftHidden d s.mask) :
    exec i (s.offset d) = offsetOutcome d (exec i s) := by
  cases i with
  | initSize | initArray => exact absurd hi.symm Bool.false_ne_true
  | capacity => exact whenConfigured_offset fun _ => rfl
  | dataLength => exact whenConfigured_offset fun _ => by rw [State.offset_dataLength]; rfl
  | remainingLength => exact whenConfigured_offset fun _ => by rw [State.offset_remainingLength]; rfl
  | readIndex => exact whenConfigured_offset fun hc => by rw [State.offset_readIndex (hd hc)]; rfl
  | writeIndex => exact whenConfigured_offset fun hc => by rw [State.offset_writeIndex (hd hc)]; rfl
  | write av len offset count =>
    refine whenConfigured_offset fun hc => ?_
    split_ifs
    · rfl
    · rfl
    · rfl
    · rfl
    · exact copyInAndAdvance_offset (hd hc) offset count
  | readBytes av len offset count =>
    refine whenConfigured_offset fun hc => ?_
    rw [State.offset_dataLength]
    split_ifs
    · rfl
    · rfl
    · rfl
    · rfl
    · exact copyOutAndAdvance_offset (hd hc) offset count
  | readBytesNew count =>
    refine whenConfigured_offset fun hc => ?_
    rw [State.offset_dataLength]
    split_ifs
    · rfl
    · exact copyOutAndAdvance_offset (s := s.freshArray count) (hd hc) 0 count
  | writeByte value =>
    refine whenConfigured_offset fun hc => ?_
    rw [State.offset_writeIndex (hd hc)]
    exact succeed_advanceWrite_offset { s with storage := Memory.write s.storage s.writeIndex.toNat value } d 1 0
  | readByte =>
    refine whenConfigured_offset fun hc => ?_
    rw [State.offset_readIndex (hd hc)]
    exact succeed_advanceRead_offset s d 1 _
  | writeInt | writeIntLe | writeLong | writeLongLe =>
    exact whenConfigured_offset fun hc => writeMasked_offset (hd hc) _ _
  | readInt | readIntLe | readLong | readLongLe =>
    refine whenConfigured_offset fun hc => ?_
    rw [State.offset_maskedByte (hd hc)]
    exact readMasked_offset _ _
  | markWriteIndex | resetWriteIndex | markReadIndex | resetReadIndex => exact whenConfigured_offset fun _ => rfl
  | skipWriteBytes count =>
    refine whenConfigured_offset fun _ => ?_
    rw [State.offset_remainingLength]
    split_ifs
    · rfl
    · exact succeed_advanceWrite_offset s d count 0
  | skipReadBytes count => exact whenConfigured_offset fun _ => succeed_advanceRead_offset s d count 0

/-- Settles O56: while configured the mask hides `d`, and before that no command looks at the counters. -/
theorem counterOffsetIsInvisible : Obligations.CounterOffsetIsInvisible :=
  fun _ _ _ hinv hi hd => exec_offset hi (shiftHidden_of_inv hinv hd)

end Sys2Proof.Machine

/-! PROOFS of the family 30_encoding: decoder and encoder are each other's inverse on well-formed commands and legal
words (R88, R91), and the legal words are those of the rows of opcode_table.json (R95). -/

namespace Sys2Proof

/-! ### The rows as the decoder checks them (30_encoding R86, R88) -/

section
variable {w : CommandWord}

/-- The word meets the must-be-zero conditions of the format (30_encoding R88). -/
def MeetsFormat (f : Format) (w : CommandWord) : Prop := ∀ c ∈ formatChecks f w, c.1 = false

@[simp] theorem meetsFormat_n :
    MeetsFormat .n w ↔ fieldAv w = false ∧ fieldA w = 0 ∧ fieldB w = 0 ∧ fieldL w = 0 := by
  simp [MeetsFormat, formatChecks]

@[simp] theorem meetsFormat_c : MeetsFormat .c w ↔ fieldAv w = false ∧ fieldB w = 0 ∧ fieldL w = 0 := by
  simp [MeetsFormat, formatChecks]

@[simp] theorem meetsFormat_v8 :
    MeetsFormat .v8 w ↔ fieldAv w = false ∧ (fieldA w).extractLsb' 8 24 = 0 ∧ fieldB w = 0 ∧ fieldL w = 0 := by
  simp [MeetsFormat, formatChecks]

@[simp] theorem meetsFormat_v32 : MeetsFormat .v32 w ↔ fieldAv w = false ∧ fieldB w = 0 ∧ fieldL w = 0 := by
  simp [MeetsFormat, formatChecks]

@[simp] theorem meetsFormat_v64 : MeetsFormat .v64 w ↔ fieldAv w = false ∧ fieldL w = 0 := by
  simp [MeetsFormat, formatChecks]

@[simp] theorem meetsFormat_d : MeetsFormat .d w ↔ arrayWellFormed (fieldAv w) (fieldL w) = true := by
  simp [MeetsFormat, formatChecks]

@[simp] theorem meetsFormat_k :
    MeetsFormat .k w ↔ fieldA w = 0 ∧ fieldB w = 0 ∧ arrayWellFormed (fieldAv w) (fieldL w) = true := by
  simp [MeetsFormat, formatChecks]

/-- A word has a row's opcode field exactly when the opcode map gives that row. -/
theorem opOfCode_eq_some {c : BitVec 8} {o : Op} : opOfCode c = some o ↔ c = opCode o :=
  ⟨fun h => (opCode_of_opOfCode h).symm, fun h => h ▸ opOfCode_opCode o⟩

/-- The three steps of R91: the legal words are those of some row, and decode to what the row assembles. -/
theorem decode_eq_ok_iff_row {i : Instr} :
    decode w = .ok i ↔
      fieldRsv w = 0 ∧ ∃ o, fieldOp w = opCode o ∧ MeetsFormat (opFormat o) w ∧ assemble o w = i := by
  simp only [decode_eq_ok, opOfCode_eq_some, MeetsFormat]

end

/-! ### Encoding, then decoding (30_encoding R88, R91) -/

/-- A byte in `A[7:0]` leaves `A[31:8]` zero. -/
theorem extractLsb'_high_setWidth (v : Byte) : (v.setWidth 32).extractLsb' 8 24 = 0 := by
  apply BitVec.eq_of_getLsbD_eq
  simp

/-- A 32-bit field is its bits 31:8 and its low byte. -/
theorem extractLsb'_high_append_low (a : Word) : a.extractLsb' 8 24 ++ a.extractLsb' 0 8 = a :=
  BitVec.extractLsb'_append_extractLsb' (w := 24) (len := 8)

/-- A byte in `A[7:0]` is read back. -/
theorem extractLsb'_low_setWidth (v : Byte) : (v.setWidth 32).extractLsb' 0 8 = v := by
  rw [BitVec.extractLsb'_setWidth_of_le (by omega), BitVec.extractLsb'_eq_self]

/-- A value with zeros above its low byte is that byte, extended. -/
theorem setWidth_low_of_high_eq_zero {a : Word} (h : a.extractLsb' 8 24 = 0) :
    (a.extractLsb' 0 8).setWidth 32 = a := by
  have hsplit := extractLsb'_high_append_low a
  rw [h] at hsplit
  rw [BitVec.setWidth_eq_append (by omega)]
  exact hsplit

/-- The two halves of a long, as format V64 carries them, are the long. -/
theorem extractLsb'_append_halves (v : Long) : v.extractLsb' 32 32 ++ v.extractLsb' 0 32 = v :=
  BitVec.extractLsb'_append_extractLsb' (w := 32) (len := 32)

theorem fieldRsv_encode (i : Instr) : fieldRsv (encode i) = 0 := by
  cases i <;> exact fieldRsv_commandWord ..

theorem fieldOp_encode (i : Instr) : fieldOp (encode i) = opCode (instrOp i) := by
  cases i <;> exact fieldOp_commandWord ..

section
variable (o : Op)

theorem meetsFormat_encodeN : MeetsFormat .n (encodeN o) := by simp [encodeN]

theorem meetsFormat_encodeA (a : Word) : MeetsFormat .c (encodeA o a) := by simp [encodeA]

theorem meetsFormat_encodeV64 (v : Long) : MeetsFormat .v64 (encodeV64 o v) := by simp [encodeV64]

end

/-- The encoder leaves zero what the format wants zero; formats D and K take the rest from the command. -/
theorem meetsFormat_encode {i : Instr} (h : wellFormed i = true) : MeetsFormat (opFormat (instrOp i)) (encode i) := by
  cases i with
  | initSize a | readBytesNew a | skipWriteBytes a | skipReadBytes a => exact meetsFormat_encodeA _ a
  | writeInt v | writeIntLe v => exact meetsFormat_v32.2 (meetsFormat_c.1 (meetsFormat_encodeA _ v))
  | writeLong v | writeLongLe v => exact meetsFormat_encodeV64 _ v
  | writeByte v => simp [encode, encodeA, instrOp, opFormat, extractLsb'_high_setWidth]
  | write av len offset count | readBytes av len offset count =>
    simp only [encode, instrOp, opFormat, meetsFormat_d, fieldAv_commandWord, fieldL_commandWord]
    exact h
  | initArray av len =>
    simp only [encode, instrOp, opFormat, meetsFormat_k, fieldA_commandWord, fieldB_commandWord, fieldAv_commandWord,
      fieldL_commandWord, true_and]
    exact h
  | _ => exact meetsFormat_encodeN _

/-- The operands are read back from the fields the encoder put them in. -/
theorem assemble_encode (i : Instr) : assemble (instrOp i) (encode i) = i := by
  cases i with
  | initSize | readBytesNew | skipWriteBytes | skipReadBytes | writeInt | writeIntLe =>
    simp [assemble, instrOp, encode, encodeA]
  | writeLong | writeLongLe => simp [assemble, instrOp, encode, encodeV64, extractLsb'_append_halves]
  | writeByte => simp [assemble, instrOp, encode, encodeA, extractLsb'_low_setWidth]
  | write | readBytes | initArray => simp [assemble, instrOp, encode]
  | _ => rfl

/-- Settles O1: the encoder's word is on the command's row, meets that row's format, and holds the operands. -/
theorem decodeOfEncodeIsIdentity : Obligations.DecodeOfEncodeIsIdentity := fun i h =>
  decode_eq_ok_iff_row.2
    ⟨fieldRsv_encode i, instrOp i, fieldOp_encode i, meetsFormat_encode h, assemble_encode i⟩

/-! ### Decoding, then encoding (30_encoding R88, R91) -/

section
variable {o : Op} {w : CommandWord}

/-- Only an array's length is restricted, and formats D and K restrict it. -/
theorem wellFormed_assemble (h : MeetsFormat (opFormat o) w) : wellFormed (assemble o w) = true := by
  cases o with
  | write | readBytes => exact meetsFormat_d.1 h
  | initArray =>
    obtain ⟨-, -, harray⟩ := meetsFormat_k.1 h
    exact harray
  | _ => rfl

/-- The fields of a word that meets its row's format are those the encoder writes: each operand in its own field, every
other field zero. -/
theorem encode_assemble (h : MeetsFormat (opFormat o) w) :
    encode (assemble o w) = commandWord (opCode o) (fieldAv w) (fieldA w) (fieldB w) (fieldL w) := by
  cases o with
  | initSize | readBytesNew | skipWriteBytes | skipReadBytes =>
    obtain ⟨hav, hb, hl⟩ := meetsFormat_c.1 h
    rw [hav, hb, hl]
    rfl
  | writeInt | writeIntLe =>
    obtain ⟨hav, hb, hl⟩ := meetsFormat_v32.1 h
    rw [hav, hb, hl]
    rfl
  | writeLong | writeLongLe =>
    obtain ⟨hav, hl⟩ := meetsFormat_v64.1 h
    rw [hav, hl]
    simp only [assemble, encode, encodeV64, BitVec.extractLsb'_append_eq_left, BitVec.extractLsb'_append_eq_right]
  | writeByte =>
    obtain ⟨hav, ha, hb, hl⟩ := meetsFormat_v8.1 h
    rw [hav, hb, hl]
    simp only [assemble, encode, encodeA, setWidth_low_of_high_eq_zero ha]
  | write | readBytes => rfl
  | initArray =>
    obtain ⟨ha, hb, -⟩ := meetsFormat_k.1 h
    rw [ha, hb]
    rfl
  | _ =>
    obtain ⟨hav, ha, hb, hl⟩ := meetsFormat_n.1 h
    rw [hav, ha, hb, hl]
    rfl

end

/-- Settles O2: a legal word has no bits but those of its row's opcode and of the operands read from it. -/
theorem encodeOfDecodeIsIdentity : Obligations.EncodeOfDecodeIsIdentity := by
  intro w i h
  obtain ⟨hrsv, o, hop, hf, rfl⟩ := decode_eq_ok_iff_row.1 h
  refine ⟨wellFormed_assemble hf, ?_⟩
  calc encode (assemble o w)
      = commandWord (opCode o) (fieldAv w) (fieldA w) (fieldB w) (fieldL w) := encode_assemble hf
    _ = w := by rw [← hop, commandWord_of_fields w hrsv]

/-! ### The rows of opcode_table.json (30_encoding R95) -/

section
variable (w m : CommandWord)

@[simp] theorem fieldRsv_and : fieldRsv (w &&& m) = fieldRsv w &&& fieldRsv m := BitVec.extractLsb'_and

@[simp] theorem fieldOp_and : fieldOp (w &&& m) = fieldOp w &&& fieldOp m := BitVec.extractLsb'_and

@[simp] theorem fieldAv_and : fieldAv (w &&& m) = (fieldAv w && fieldAv m) := BitVec.getLsbD_and

@[simp] theorem fieldA_and : fieldA (w &&& m) = fieldA w &&& fieldA m := BitVec.extractLsb'_and

@[simp] theorem fieldB_and : fieldB (w &&& m) = fieldB w &&& fieldB m := BitVec.extractLsb'_and

@[simp] theorem fieldL_and : fieldL (w &&& m) = fieldL w &&& fieldL m := BitVec.extractLsb'_and

end

/-- The bits of `AV`, `A`, `B` and `L` that a mask fixes. -/
structure FixedBits where
  av : Bool
  a : Word
  b : Word
  l : Word

/-- What the masks of a format fix beside `OP` and `RSV`. -/
def fixedBits : Format → FixedBits
  | .n => ⟨true, BitVec.allOnes 32, BitVec.allOnes 32, BitVec.allOnes 32⟩
  | .c | .v32 => ⟨true, 0, BitVec.allOnes 32, BitVec.allOnes 32⟩
  | .v8 => ⟨true, BitVec.allOnes 24 ++ 0#8, BitVec.allOnes 32, BitVec.allOnes 32⟩
  | .v64 => ⟨true, 0, 0, BitVec.allOnes 32⟩
  | .d => ⟨false, 0, 0, 0⟩
  | .k => ⟨false, BitVec.allOnes 32, BitVec.allOnes 32, 0⟩

section
variable (o : Op)

@[simp] theorem fieldRsv_rowMask : fieldRsv (rowMask o) = BitVec.allOnes 23 := by
  cases o <;> rfl

@[simp] theorem fieldOp_rowMask : fieldOp (rowMask o) = BitVec.allOnes 8 := by
  cases o <;> rfl

@[simp] theorem fieldAv_rowMask : fieldAv (rowMask o) = (fixedBits (opFormat o)).av := by
  cases o <;> rfl

@[simp] theorem fieldA_rowMask : fieldA (rowMask o) = (fixedBits (opFormat o)).a := by
  cases o <;> rfl

@[simp] theorem fieldB_rowMask : fieldB (rowMask o) = (fixedBits (opFormat o)).b := by
  cases o <;> rfl

@[simp] theorem fieldL_rowMask : fieldL (rowMask o) = (fixedBits (opFormat o)).l := by
  cases o <;> rfl

end

/-- A word is the word of given fields exactly when `RSV` is zero and the fields are those (R81). -/
theorem eq_commandWord_iff {w : CommandWord} {op : BitVec 8} {av : Bool} {a b l : Word} :
    w = commandWord op av a b l ↔
      fieldRsv w = 0 ∧ fieldOp w = op ∧ fieldAv w = av ∧ fieldA w = a ∧ fieldB w = b ∧ fieldL w = l := by
  constructor
  · rintro rfl
    simp
  · rintro ⟨hrsv, rfl, rfl, rfl, rfl, rfl⟩
    exact (commandWord_of_fields w hrsv).symm

/-- The match of a row is its opcode in a word with no other bit set. -/
theorem rowMatch_eq_commandWord (o : Op) : rowMatch o = commandWord (opCode o) false 0 0 0 := by
  cases o <;> rfl

/-- A word matches a row under its mask exactly when `RSV` is zero, `OP` is the row's, and the fixed bits are zero. -/
theorem and_rowMask_iff {w : CommandWord} {o : Op} : w &&& rowMask o = rowMatch o ↔
    fieldRsv w = 0 ∧ fieldOp w = opCode o ∧ (fieldAv w && (fixedBits (opFormat o)).av) = false ∧
      fieldA w &&& (fixedBits (opFormat o)).a = 0 ∧ fieldB w &&& (fixedBits (opFormat o)).b = 0 ∧
      fieldL w &&& (fixedBits (opFormat o)).l = 0 := by
  rw [rowMatch_eq_commandWord, eq_commandWord_iff]
  simp only [fieldRsv_and, fieldOp_and, fieldAv_and, fieldA_and, fieldB_and, fieldL_and, fieldRsv_rowMask,
    fieldOp_rowMask, fieldAv_rowMask, fieldA_rowMask, fieldB_rowMask, fieldL_rowMask, BitVec.and_allOnes]

/-- The bits of `A` that format V8 fixes are `A[31:8]`. -/
theorem and_high_eq_zero {a : Word} : a &&& (BitVec.allOnes 24 ++ 0#8) = 0#32 ↔ a.extractLsb' 8 24 = 0#24 := by
  have hmask : a &&& (BitVec.allOnes 24 ++ 0#8) = a.extractLsb' 8 24 ++ 0#8 := by
    conv_lhs => rw [← extractLsb'_high_append_low a]
    exact BitVec.and_append.trans (by rw [BitVec.and_allOnes, BitVec.and_zero])
  rw [hmask]
  constructor
  · intro h
    rw [← BitVec.extractLsb'_append_eq_left (a := a.extractLsb' 8 24) (b := 0#8), h]
    rfl
  · intro h
    rw [h]
    rfl

/-- An array operand's condition, as the opcode table words it. -/
theorem arrayWellFormed_iff {av : Bool} {l : Word} : arrayWellFormed av l = true ↔ (av = false → l = 0) := by
  cases av <;> simp [arrayWellFormed]

/-- The constraint of a row, in the fields' terms. -/
theorem rowConstraint_iff {o : Op} {w : CommandWord} :
    rowConstraint o w ↔ (opFormat o = .d ∨ opFormat o = .k → fieldAv w = false → fieldL w = 0) := Iff.rfl

/-- The fixed bits of a row's format and the row's constraint are together what R88 asks of the format: a field under all
ones is the whole field, which `simp` sees only while `BitVec.allOnes` is not turned into a number. -/
theorem meetsFormat_iff_fixedBits {w : CommandWord} {o : Op} : MeetsFormat (opFormat o) w ↔
    ((fieldAv w && (fixedBits (opFormat o)).av) = false ∧
      fieldA w &&& (fixedBits (opFormat o)).a = 0 ∧ fieldB w &&& (fixedBits (opFormat o)).b = 0 ∧
      fieldL w &&& (fixedBits (opFormat o)).l = 0) ∧ rowConstraint o w := by
  rw [rowConstraint_iff]
  generalize opFormat o = f
  cases f with
  | n | c | v32 | v64 => simp [-BitVec.reduceAllOnes, fixedBits]
  | v8 => simp [-BitVec.reduceAllOnes, fixedBits, and_high_eq_zero]
  | d => simp [fixedBits, arrayWellFormed_iff]
  | k => simp [-BitVec.reduceAllOnes, fixedBits, arrayWellFormed_iff, and_assoc]

/-- A word decodes to a row's command exactly when `RSV` is zero, `OP` is the row's, and the row's format is met. -/
theorem decodesToRow_iff {w : CommandWord} {o : Op} : (∃ i, decode w = .ok i ∧ instrOp i = o) ↔
    fieldRsv w = 0 ∧ fieldOp w = opCode o ∧ MeetsFormat (opFormat o) w := by
  constructor
  · rintro ⟨i, hdec, rfl⟩
    obtain ⟨hrsv, o, hop, hf, rfl⟩ := decode_eq_ok_iff_row.1 hdec
    rw [instrOp_assemble]
    exact ⟨hrsv, hop, hf⟩
  · rintro ⟨hrsv, hop, hf⟩
    exact ⟨assemble o w, decode_eq_ok_iff_row.2 ⟨hrsv, o, hop, hf, rfl⟩, instrOp_assemble o w⟩

/-- Settles O3: the mask, the match and the constraint of a row ask, field by field, what the decoder checks. -/
theorem legalWordsAreTheTableRows : Obligations.LegalWordsAreTheTableRows := by
  intro w o
  rw [decodesToRow_iff, and_rowMask_iff, meetsFormat_iff_fixedBits]
  simp only [and_assoc]

/-! ### The words the spec writes out (30_encoding R94, 95_test_vectors V10) -/

/-- Settles O4: the words are closed, so the decoder is run on each. -/
theorem specExampleWordsDecode : Obligations.SpecExampleWordsDecode := by
  unfold Obligations.SpecExampleWordsDecode
  decide

end Sys2Proof

/-! PROOFS of the family 40_observers: the word of each observer, and what it answers on a configured block (R110 to
R114). -/

namespace Sys2Proof.Machine

/-- A command that is one success behind the not-configured check, in the state it began in, answers ST_OK with its value
and writes no field of the block. -/
theorem exec_answersOk_of_succeed_self {s : State} {i : Instr} {v : Long} (hc : s.configured = true)
    (hexec : exec i s = whenConfigured s (succeed s v)) :
    ∃ t, exec i s = .next t ∧ BlockKept s t ∧ AnsweredPlain s t .ok v := by
  have hnext : exec i s = .next (s.respond .ok v) := hexec.trans (whenConfigured_true hc _)
  exact ⟨_, hnext, blockKept_respond _ _ _, answeredPlain_respond _ _ _⟩

/-- Settles O11: `capacity` succeeds with the capacity, in the state it began in. -/
theorem capacityIsObserved : Obligations.CapacityIsObserved :=
  ⟨by decide, fun _ hc => exec_answersOk_of_succeed_self hc rfl⟩

/-- Settles O12: `data_length` succeeds with the difference of the counters, in the state it began in. -/
theorem dataLengthIsObserved : Obligations.DataLengthIsObserved :=
  ⟨by decide, fun _ hc => exec_answersOk_of_succeed_self hc rfl⟩

/-- Settles O13: `remaining_length` succeeds with the pattern of the integer free space, in the state it began in. -/
theorem remainingLengthIsObserved : Obligations.RemainingLengthIsObserved :=
  ⟨by decide, fun _ hc => exec_answersOk_of_succeed_self hc rfl⟩

/-- Settles O14: `read_index` succeeds with the place of `read_count`, which is one of storage. -/
theorem readIndexIsObserved : Obligations.ReadIndexIsObserved :=
  ⟨by decide, fun s hc =>
    ⟨fun hinv => indexOf_lt_capacity hinv hc s.readCount, exec_answersOk_of_succeed_self hc rfl⟩⟩

/-- Settles O15: `write_index` succeeds with the place of `write_count`, which is one of storage. -/
theorem writeIndexIsObserved : Obligations.WriteIndexIsObserved :=
  ⟨by decide, fun s hc =>
    ⟨fun hinv => indexOf_lt_capacity hinv hc s.writeCount, exec_answersOk_of_succeed_self hc rfl⟩⟩

end Sys2Proof.Machine

/-! PROOFS of the family 41_bulk_copy: what `write`, `read_bytes` and `read_bytes_new` do on their domains (R120, R123,
R126), `read_bytes_new` on too little data (R127), and the round trip through an empty buffer (R125). -/

namespace Sys2Proof.Machine

/-! ### Sizes and positions (10_state R29, R36, 20_memory R51, R62) -/

/-- The capacity is a power of two of 32 bits and the mask is one less: what the masked form of a copy rests on. -/
def PowerOfTwoCapacity (s : State) : Prop := ∃ j ≤ 31, s.capacity.toNat = 2 ^ j ∧ s.mask = s.capacity - 1

theorem powerOfTwoCapacity_of_inv {s : State} (hinv : Inv s) (hc : s.configured = true) : PowerOfTwoCapacity s :=
  exists_capacity_eq_two_pow hinv hc

/-- Bytes of one access fewer than `capacity` apart lie at distinct positions (20_memory R51). -/
theorem position_injOn {s : State} (hpow : PowerOfTwoCapacity s) (x : Word) {k k' : Nat}
    (hk : k < s.capacity.toNat) (hk' : k' < s.capacity.toNat)
    (h : position x s.mask k = position x s.mask k') : k = k' := by
  obtain ⟨j, hj, hcap, hmask⟩ := hpow
  rw [position_eq_mod hj hcap hmask, position_eq_mod hj hcap hmask, ← hcap] at h
  have hmod : k ≡ k' [MOD s.capacity.toNat] := Nat.ModEq.add_left_cancel' x.toNat h
  exact hmod.eq_of_lt_of_lt hk hk'

/-- A copy of at most `capacity` bytes from a counter's place wraps at most once. -/
theorem fitsSplit_of_le_capacity {s : State} {count : Word} (hinv : Inv s) (hc : s.configured = true) (c : Word)
    (hcount : count.toNat ≤ s.capacity.toNat) : FitsSplit s (indexOf c s.mask) count := by
  have hx := indexOf_lt_capacity hinv hc c
  omega

theorem State.advanceWrite_dataLength (s : State) (n : Word) : (s.advanceWrite n).dataLength = s.dataLength + n := by
  simp only [State.dataLength, State.advanceWrite_writeCount, State.advanceWrite_readCount]
  bv_omega

theorem State.advanceRead_dataLength (s : State) (n : Word) : (s.advanceRead n).dataLength = s.dataLength - n := by
  simp only [State.dataLength, State.advanceRead_writeCount, State.advanceRead_readCount]
  bv_omega

/-- In an empty buffer the two counters are equal. -/
theorem readCount_eq_writeCount_of_empty {s : State} (h : s.dataLength = 0) : s.readCount = s.writeCount := by
  have hsub : s.writeCount - s.readCount = 0 := h
  bv_omega

/-! ### The copy in (41_bulk_copy R120) -/

/-- The state with source bytes `offset`, `offset + 1`, … stored from `write_index` on, each position masked by itself,
and `write_count` advanced: what `write` leaves before its response. -/
def State.copiedIn (s : State) (offset count : Word) : State :=
  ({ s with
    storage := storeRun (position s.writeIndex s.mask) (fun k => s.oaRead (offset.toNat + k)) count.toNat
      s.storage } : State).advanceWrite count

section
variable {s : State} {len offset count : Word}

theorem wroteBytes_copiedIn : WroteBytes s (s.copiedIn offset count) count.toNat fun k => s.oaRead (offset.toNat + k) :=
  wroteBytes_storeRun s count.toNat fun k => s.oaRead (offset.toNat + k)

/-- No byte of a copy of at most `capacity` is replaced by a later one. -/
theorem copiedIn_memRead_position (hpow : PowerOfTwoCapacity s) (hcount : count.toNat ≤ s.capacity.toNat) {k : Nat}
    (hk : k < count.toNat) :
    (s.copiedIn offset count).memRead (position s.writeIndex s.mask k) = s.oaRead (offset.toNat + k) := by
  obtain ⟨hstored, -⟩ := wroteBytes_copiedIn (s := s) (offset := offset) (count := count)
  refine hstored k hk fun k' hk' hlt heq => ?_
  have := position_injOn hpow s.writeIndex (by omega) (by omega) heq
  omega

theorem copyInAndAdvance_of_fitsSplit (hpow : PowerOfTwoCapacity s) (hfits : FitsSplit s s.writeIndex count) :
    copyInAndAdvance offset count s = .next ((s.copiedIn offset count).respond .ok 0) := by
  obtain ⟨j, hj, hcap, hmask⟩ := hpow
  rw [copyInAndAdvance, copyIn_eq_masked hj hcap hmask offset.toNat hfits]
  rfl

/-- `write` past all its checks is the copy in. -/
theorem exec_write_of_proceeds (h : WriteProceeds s true len offset)
    (hroom : offset.toNat + count.toNat ≤ len.toNat) :
    exec (.write true len offset count) s = copyInAndAdvance offset count s := by
  obtain ⟨hc, -, hlen, hoffset⟩ := h
  calc exec (.write true len offset count) s
      = if len.toNat = 0 then silentNoop s else if offset.toNat > len.toNat then silentNoop s
          else if offset.toNat + count.toNat > len.toNat then faultDomain .srcRange
          else copyInAndAdvance offset count s := whenConfigured_true hc _
    _ = copyInAndAdvance offset count s := by rw [if_neg hlen, if_neg hoffset.not_gt, if_neg hroom.not_gt]

/-- `write` on its domain. -/
theorem exec_write (hinv : Inv s) (h : WriteProceeds s true len offset)
    (hroom : offset.toNat + count.toNat ≤ len.toNat) (hfits : FitsSplit s s.writeIndex count) :
    exec (.write true len offset count) s = .next ((s.copiedIn offset count).respond .ok 0) := by
  rw [exec_write_of_proceeds h hroom]
  exact copyInAndAdvance_of_fitsSplit (powerOfTwoCapacity_of_inv hinv h.1) hfits

end

/-- Settles O22: the split copy is the masked run, which writes the positions as `WroteBytes` says. -/
theorem writeStoresSourceBytes : Obligations.WriteStoresSourceBytes := by
  intro s len offset count hinv hproceeds hroom hfits
  exact ⟨_, exec_write hinv hproceeds hroom hfits, wroteBytes_copiedIn, rfl, rfl, ⟨rfl, rfl, rfl, rfl⟩, ⟨rfl, rfl⟩,
    ⟨rfl, rfl, rfl⟩, rfl⟩

/-! ### The copy out (41_bulk_copy R123, R126) -/

/-- The bytes of the operand array with the bytes from `read_index` on, each position masked by itself, from index
`offset` on: what its owner is handed back. -/
def State.copiedOut (s : State) (offset count : Word) : Memory :=
  storeRun (fun k => offset.toNat + k) (fun k => s.memRead (position s.readIndex s.mask k)) count.toNat
    s.operand.bytes

/-- A copy from array index 0. -/
theorem zero_toNat_add (k : Nat) : (0 : Word).toNat + k = k := Nat.zero_add k

section
variable {s : State} {len offset count : Word}

theorem copiedOut_read? {k : Nat} (hk : k < count.toNat) :
    Memory.read? (s.copiedOut offset count) (offset.toNat + k) =
      some (s.memRead (position s.readIndex s.mask k)) :=
  storeRun_read _ _ hk fun _ _ hlt heq => hlt.ne' (Nat.add_left_cancel heq)

theorem copiedOut_read?_other {a : Nat} (ha : a < offset.toNat ∨ offset.toNat + count.toNat ≤ a) :
    Memory.read? (s.copiedOut offset count) a = Memory.read? s.operand.bytes a :=
  storeRun_read_other _ _ fun k hk => by omega

/-- The array handed back has the bytes copied to it. -/
theorem copiedOut_byte? (hvalid : s.operand.valid = true)
    (hroom : offset.toNat + count.toNat ≤ s.operand.length.toNat) {k : Nat} (hk : k < count.toNat) :
    (s.fillOperand (s.copiedOut offset count)).operand.byte? (offset.toNat + k) =
      some (s.memRead (position s.readIndex s.mask k)) := by
  have hin : offset.toNat + k < s.operand.length.toNat := by omega
  calc (s.fillOperand (s.copiedOut offset count)).operand.byte? (offset.toNat + k)
      = some ((s.fillOperand (s.copiedOut offset count)).operand.byte (offset.toNat + k)) :=
        OperandArray.byte?_of_lt hvalid hin
    _ = some (s.memRead (position s.readIndex s.mask k)) :=
        congrArg some (OperandArray.byte_of_read? (copiedOut_read? hk))

theorem copyOutAndAdvance_of_fitsSplit (hpow : PowerOfTwoCapacity s) (hfits : FitsSplit s s.readIndex count) :
    copyOutAndAdvance offset count s =
      .next (((s.fillOperand (s.copiedOut offset count)).advanceRead count).respond .ok 0) := by
  obtain ⟨j, hj, hcap, hmask⟩ := hpow
  rw [copyOutAndAdvance, copyOut_eq_masked hj hcap hmask offset.toNat hfits]
  rfl

/-- `read_bytes` past all its checks is the copy out. -/
theorem exec_readBytes_of_proceeds (h : ReadProceeds s true len offset count)
    (hroom : offset.toNat + count.toNat ≤ len.toNat) :
    exec (.readBytes true len offset count) s = copyOutAndAdvance offset count s := by
  obtain ⟨hc, -, hoffset, hcount⟩ := h
  calc exec (.readBytes true len offset count) s
      = if offset.toNat > len.toNat then silentNoop s
          else if s.dataLength.toNat < count.toNat then silentNoop s
          else if offset.toNat + count.toNat > len.toNat then faultDomain .dstRange
          else copyOutAndAdvance offset count s := whenConfigured_true hc _
    _ = copyOutAndAdvance offset count s := by rw [if_neg hoffset.not_gt, if_neg hcount.not_gt, if_neg hroom.not_gt]

/-- `read_bytes_new` of data that are there is the copy out into a new array. -/
theorem exec_readBytesNew_of_le (hc : s.configured = true) (hcount : count.toNat ≤ s.dataLength.toNat) :
    exec (.readBytesNew count) s = copyOutAndAdvance 0 count (s.freshArray count) :=
  (whenConfigured_true hc _).trans (if_neg hcount.not_gt)

/-- `read_bytes_new` of more than there is is a silent no-op, with a new array. -/
theorem exec_readBytesNew_of_lt (hc : s.configured = true) (hshort : s.dataLength.toNat < count.toNat) :
    exec (.readBytesNew count) s = .next ((s.freshArray count).respond noopStatus 0) :=
  (whenConfigured_true hc _).trans (if_pos hshort)

end

/-- Settles O23: the split copy is the masked run into the destination. -/
theorem readBytesFillsDestination : Obligations.ReadBytesFillsDestination := by
  intro s len offset count hinv hproceeds hroom hfits
  have hexec := (exec_readBytes_of_proceeds hproceeds hroom).trans
    (copyOutAndAdvance_of_fitsSplit (powerOfTwoCapacity_of_inv hinv hproceeds.1) hfits)
  exact ⟨_, { s.operand with bytes := s.copiedOut offset count }, hexec, rfl, fun _ => copiedOut_read?,
    fun _ => copiedOut_read?_other, rfl, rfl, ⟨rfl, rfl, rfl, rfl⟩, ⟨rfl, fun _ => rfl⟩, ⟨rfl, rfl⟩,
    ⟨rfl, rfl, rfl⟩, rfl⟩

/-- Settles O24: the same run from index 0 into an array of which no byte is given. -/
theorem readBytesNewFillsNewArray : Obligations.ReadBytesNewFillsNewArray := by
  intro s count hinv hc hcount hfits
  have hexec := (exec_readBytesNew_of_le hc hcount).trans
    (copyOutAndAdvance_of_fitsSplit (powerOfTwoCapacity_of_inv (s := s) hinv hc) hfits)
  refine ⟨_, { (s.freshArray count).operand with bytes := (s.freshArray count).copiedOut 0 count }, hexec, rfl, rfl,
    fun k hk => ?_, fun a ha => ?_, rfl, rfl, ⟨rfl, rfl, rfl, rfl⟩, ⟨rfl, fun _ => rfl⟩, ⟨rfl, rfl⟩, rfl, rfl, rfl⟩
  · have hread := copiedOut_read? (s := s.freshArray count) (offset := 0) hk
    rwa [zero_toNat_add] at hread
  · exact copiedOut_read?_other (.inr (by rwa [zero_toNat_add]))

/-- Settles O25: the array is the fresh one, of which no byte is given. -/
theorem readBytesNewShortHandsBackArbitraryBytes : Obligations.ReadBytesNewShortHandsBackArbitraryBytes := by
  intro s count hc hshort
  exact ⟨_, (s.freshArray count).operand, exec_readBytesNew_of_lt hc hshort, rfl, rfl, rfl,
    fun _ hj => ⟨_, OperandArray.byte?_of_lt rfl hj⟩, fun _ hj => OperandArray.byte?_of_le hj,
    blockKept_freshArray s count, rfl, rfl, rfl⟩

/-! ### The round trip (41_bulk_copy R125) -/

/-- The unread bytes are `b 0`, `b 1`, …, `count` of them (20_memory R51). -/
def Holds (s : State) (count : Word) (b : Nat → Byte) : Prop :=
  s.dataLength = count ∧ ∀ k < count.toNat, s.memRead (position s.readIndex s.mask k) = b k

/-- Bytes copied into an empty buffer with room for them are its unread bytes. -/
theorem holds_copiedIn {s : State} {offset count : Word} (hpow : PowerOfTwoCapacity s) (hempty : s.dataLength = 0)
    (hcount : count.toNat ≤ s.capacity.toNat) :
    Holds (s.copiedIn offset count) count fun k => s.oaRead (offset.toNat + k) := by
  have hindex : (s.copiedIn offset count).readIndex = s.writeIndex :=
    congrArg (indexOf · s.mask) (readCount_eq_writeCount_of_empty hempty)
  constructor
  · calc (s.copiedIn offset count).dataLength
        = s.dataLength + count := State.advanceWrite_dataLength _ count
      _ = count := by rw [hempty]; exact BitVec.zero_add count
  · intro k hk
    rw [hindex]
    exact copiedIn_memRead_position hpow hcount hk

section
variable {s : State} {offset count : Word} {b : Nat → Byte}

theorem le_dataLength_of_holds (hholds : Holds s count b) : count.toNat ≤ s.dataLength.toNat := by
  obtain ⟨hlen, -⟩ := hholds
  rw [hlen]

/-- If all the unread bytes are copied out to an array with room, it has them and the buffer is empty. -/
theorem copyOutAndAdvance_of_holds (hpow : PowerOfTwoCapacity s) (hfits : FitsSplit s s.readIndex count)
    (hholds : Holds s count b) (hvalid : s.operand.valid = true)
    (hroom : offset.toNat + count.toNat ≤ s.operand.length.toNat) :
    ∃ u r rest, copyOutAndAdvance offset count s = .next u ∧ u.responses = r :: rest ∧ r.status = .ok ∧
      u.dataLength = 0 ∧ r.array.valid = true ∧ r.array.length = s.operand.length ∧
      ∀ k < count.toNat, r.array.byte? (offset.toNat + k) = some (b k) := by
  obtain ⟨hlen, hbytes⟩ := hholds
  refine ⟨_, _, _, copyOutAndAdvance_of_fitsSplit hpow hfits, rfl, rfl, ?_, hvalid, rfl, fun k hk => ?_⟩
  · calc ((s.fillOperand (s.copiedOut offset count)).advanceRead count).dataLength
        = s.dataLength - count := State.advanceRead_dataLength _ count
      _ = 0 := by rw [hlen]; exact BitVec.sub_self count
  · exact (copiedOut_byte? hvalid hroom hk).trans (congrArg some (hbytes k hk))

/-- `read_bytes_new` of all the unread bytes. -/
theorem exec_readBytesNew_of_holds (hc : s.configured = true) (hpow : PowerOfTwoCapacity s)
    (hfits : FitsSplit s s.readIndex count) (hholds : Holds s count b) :
    ∃ u r rest, exec (.readBytesNew count) s = .next u ∧ u.responses = r :: rest ∧ r.status = .ok ∧
      u.dataLength = 0 ∧ r.array.valid = true ∧ r.array.length = count ∧
      ∀ k < count.toNat, r.array.byte? k = some (b k) := by
  have hread := copyOutAndAdvance_of_holds (s := s.freshArray count) (offset := 0) hpow hfits hholds rfl
    (zero_toNat_add _).le
  rw [exec_readBytesNew_of_le hc (le_dataLength_of_holds hholds)]
  simpa only [zero_toNat_add, State.freshArray_operand] using hread

/-- `read_bytes` of all the unread bytes into a destination with room. -/
theorem exec_readBytes_of_holds (hc : s.configured = true) (hpow : PowerOfTwoCapacity s)
    (hfits : FitsSplit s s.readIndex count) (hholds : Holds s count b) (hvalid : s.operand.valid = true)
    (hroom : offset.toNat + count.toNat ≤ s.operand.length.toNat) :
    ∃ u r rest, exec (.readBytes true s.operand.length offset count) s = .next u ∧ u.responses = r :: rest ∧
      r.status = .ok ∧ u.dataLength = 0 ∧
      ∀ k < count.toNat, r.array.byte? (offset.toNat + k) = some (b k) := by
  obtain ⟨u, r, rest, hread, hres, hok, hlen, -, -, hbytes⟩ :=
    copyOutAndAdvance_of_holds hpow hfits hholds hvalid hroom
  have hproceeds : ReadProceeds s true s.operand.length offset count :=
    ⟨hc, rfl, by omega, le_dataLength_of_holds hholds⟩
  exact ⟨u, r, rest, (exec_readBytes_of_proceeds hproceeds hroom).trans hread, hres, hok, hlen, hbytes⟩

end

/-- Settles O28: after the write the unread bytes are the source's, and either read copies them all out. -/
theorem bulkRoundTrip : Obligations.BulkRoundTrip := by
  intro s len offset count hinv hproceeds hroom hempty hfree
  have hc : s.configured = true := hproceeds.1
  have hpow := powerOfTwoCapacity_of_inv hinv hc
  have hcount : count.toNat ≤ s.capacity.toNat := by
    rw [State.remainingLength, hempty] at hfree
    simpa using hfree
  have hfits := fun c => fitsSplit_of_le_capacity hinv hc c hcount
  have hholds := holds_copiedIn (offset := offset) hpow hempty hcount
  refine ⟨(s.copiedIn offset count).respond .ok 0, exec_write hinv hproceeds hroom (hfits s.writeCount), ?_,
    fun destination offset' hvalid hroom' => ?_⟩
  · exact exec_readBytesNew_of_holds (s := (s.copiedIn offset count).respond .ok 0) hc hpow (hfits s.readCount) hholds
  · exact exec_readBytes_of_holds (s := { (s.copiedIn offset count).respond .ok 0 with operand := destination })
      hc hpow (hfits s.readCount) hholds hvalid hroom'

end Sys2Proof.Machine

/-! PROOFS of the family 42_single_byte: `write_byte` and `read_byte` at the masked index, with no check but
`configured` (R140, R141). -/

namespace Sys2Proof.Machine

/-! ### One byte of storage written (00_scope R14, 20_memory R50) -/

/-- The state with byte `v` at position `p` of storage: what `MemWrite(p, 1, v)` leaves. -/
def State.storeByte (s : State) (p : Nat) (v : Byte) : State := { s with storage := Memory.write s.storage p v }

section
variable (s : State) (p : Nat) (v : Byte)

@[simp] theorem State.storeByte_memRead_same : (s.storeByte p v).memRead p = v :=
  congrArg (Option.getD · _) (Memory.read?_write_same s.storage p v)

theorem State.storeByte_memRead_ne {q : Nat} (h : q ≠ p) : (s.storeByte p v).memRead q = s.memRead q :=
  congrArg (Option.getD · _) (Memory.read?_write_ne s.storage v h)

end

/-! ### The two commands on a configured block -/

section
variable {s : State} (hc : s.configured = true)
include hc

theorem exec_writeByte (value : Byte) :
    exec (.writeByte value) s =
      .next (((s.storeByte s.writeIndex.toNat value).advanceWrite 1).respond .ok 0) :=
  whenConfigured_true hc _

theorem exec_readByte :
    exec .readByte s = .next ((s.advanceRead 1).respond .ok ((s.memRead s.readIndex.toNat).setWidth 64)) :=
  whenConfigured_true hc _

end

/-- A byte read from an empty buffer takes `data_length` below 0, where it wraps. -/
theorem dataLength_advanceRead_one_of_empty {s : State} (h : s.dataLength = 0) :
    (s.advanceRead 1).dataLength = 0xFFFFFFFF :=
  calc (s.advanceRead 1).dataLength
      = s.dataLength - 1 := State.advanceRead_dataLength s 1
    _ = 0 - 1 := by rw [h]
    _ = 0xFFFFFFFF := by decide

/-- Settles O29: one byte is stored at `write_index`, which is `write_count & mask`. -/
theorem writeByteStoresAtWriteIndex : Obligations.WriteByteStoresAtWriteIndex := by
  intro s value hc
  exact ⟨_, exec_writeByte hc value, s.storeByte_memRead_same s.writeIndex.toNat value,
    fun _ => s.storeByte_memRead_ne s.writeIndex.toNat value, rfl, rfl, ⟨rfl, rfl, rfl, rfl⟩, ⟨rfl, rfl⟩,
    ⟨rfl, rfl, rfl⟩, rfl⟩

/-- Settles O30: the byte at `read_index`, which is `read_count & mask`, is answered and only `read_count` advances. -/
theorem readByteReturnsByteAtReadIndex : Obligations.ReadByteReturnsByteAtReadIndex := by
  refine ⟨by decide, fun s hc => ?_⟩
  exact ⟨_, exec_readByte hc, rfl, rfl, dataLength_advanceRead_one_of_empty, ⟨rfl, rfl, rfl, rfl⟩,
    ⟨rfl, fun _ => rfl⟩, ⟨rfl, rfl⟩, ⟨rfl, rfl, rfl⟩, rfl⟩

end Sys2Proof.Machine

/-! PROOFS of the family 43_int_codec: the words of the codecs, the masked runs they store and fetch (R151 to R158), and
the laws that connect them with each other, with single bytes and with the bulk copy (R160). -/

/-! ### The words of the codecs (30_encoding R82) -/

namespace Sys2Proof

theorem encodeA_eq_append (o : Op) (a : Word) : encodeA o a = 0#64 ++ a ++ (opCode o).setWidth 32 := by
  cases o <;> rfl

theorem encodeV64_eq_append (o : Op) (v : Long) : encodeV64 o v = 0#32 ++ v ++ (opCode o).setWidth 32 := by
  have hfields : encodeV64 o v = 0#32 ++ v.extractLsb' 32 32 ++ v.extractLsb' 0 32 ++ (opCode o).setWidth 32 := by
    cases o <;> rfl
  have hhalves : 0#32 ++ v.extractLsb' 32 32 ++ v.extractLsb' 0 32 = 0#32 ++ v :=
    BitVec.append_assoc.trans (congrArg (0#32 ++ ·) (extractLsb'_append_halves v))
  rw [hfields, hhalves]

end Sys2Proof

namespace Sys2Proof.Machine

/-! ### The bytes of a value and of its halves (20_memory R55, R56) -/

/-- The bytes of a value, joined in the order they were taken, are the value. -/
theorem joinInt_intByte (v : Word) : joinInt (intByte v) = v := by
  simp only [joinInt, intByte]
  iterate 3 rw [BitVec.extractLsb'_append_extractLsb'_eq_extractLsb' (by decide)]
  exact BitVec.extractLsb'_eq_self

theorem joinIntLe_intByteLe (v : Word) : joinIntLe (intByteLe v) = v := joinInt_intByte v

theorem joinLong_longByte (v : Long) : joinLong (longByte v) = v := by
  simp only [joinLong, longByte]
  iterate 7 rw [BitVec.extractLsb'_append_extractLsb'_eq_extractLsb' (by decide)]
  exact BitVec.extractLsb'_eq_self

theorem joinLongLe_longByteLe (v : Long) : joinLongLe (longByteLe v) = v := joinLong_longByte v

/-- Joined in the other order they are the value with its bytes reversed. -/
theorem joinIntLe_intByte (v : Word) : joinIntLe (intByte v) = rev4 v := rfl

theorem joinInt_intByteLe (v : Word) : joinInt (intByteLe v) = rev4 v := rfl

theorem joinLongLe_longByte (v : Long) : joinLongLe (longByte v) = rev8 v := rfl

theorem joinLong_longByteLe (v : Long) : joinLong (longByteLe v) = rev8 v := rfl

/-- A field of a field is a field of the whole. -/
theorem extractLsb'_extractLsb' {w start start' len len' : Nat} (v : BitVec w) (h : start' + len' ≤ len) :
    (v.extractLsb' start len).extractLsb' start' len' = v.extractLsb' (start + start') len' := by
  ext i hi
  simp [show start' + i < len by omega, Nat.add_assoc]

/-- Byte `k` of four joined least significant first is the `k`-th of them. -/
theorem intByteLe_joinIntLe (b : Nat → Byte) {k : Nat} (hk : k < 4) : intByteLe (joinIntLe b) k = b k := by
  simp only [intByteLe, joinIntLe]
  interval_cases k
  · exact BitVec.extractLsb'_append_eq_right
  · rw [BitVec.extractLsb'_append_eq_of_le (by decide)]
    exact BitVec.extractLsb'_append_eq_right
  · iterate 2 rw [BitVec.extractLsb'_append_eq_of_le (by decide)]
    exact BitVec.extractLsb'_append_eq_right
  · iterate 3 rw [BitVec.extractLsb'_append_eq_of_le (by decide)]
    exact BitVec.extractLsb'_eq_self

theorem intByteLe_rev4 (v : Word) {k : Nat} (hk : k < 4) : intByteLe (rev4 v) k = intByte v k :=
  intByteLe_joinIntLe (intByte v) hk

/-- The first four bytes of a long, most significant first, are its high half's, and the other four its low half's. -/
theorem intByte_high (v : Long) {k : Nat} (hk : k < 4) : intByte (v.extractLsb' 32 32) k = longByte v k := by
  rw [intByte, extractLsb'_extractLsb' v (by omega), longByte, show 32 + (24 - 8 * k) = 56 - 8 * k by omega]

theorem intByte_low (v : Long) (k : Nat) : intByte (v.extractLsb' 0 32) k = longByte v (4 + k) := by
  rw [intByte, extractLsb'_extractLsb' v (by omega), longByte, show 0 + (24 - 8 * k) = 56 - 8 * (4 + k) by omega]

/-- Least significant first it is the other way round. -/
theorem intByteLe_low (v : Long) {k : Nat} (hk : k < 4) : intByteLe (v.extractLsb' 0 32) k = longByteLe v k := by
  rw [intByteLe, extractLsb'_extractLsb' v (by omega), longByteLe, Nat.zero_add]

theorem intByteLe_high (v : Long) {k : Nat} (hk : k < 4) :
    intByteLe (v.extractLsb' 32 32) k = longByteLe v (4 + k) := by
  rw [intByteLe, extractLsb'_extractLsb' v (by omega), longByteLe, show 32 + 8 * k = 8 * (4 + k) by omega]

/-! ### Blocks with the same eight fields (10_state R20) -/

theorem blockKept_refl (s : State) : BlockKept s s :=
  ⟨⟨rfl, rfl, rfl, rfl⟩, ⟨rfl, fun _ => rfl⟩, ⟨rfl, rfl⟩, rfl, rfl⟩

theorem blockKept_trans {s t u : State} (hst : BlockKept s t) (htu : BlockKept t u) : BlockKept s u := by
  obtain ⟨⟨hconf, hcap, hmask, hcon⟩, ⟨hsto, hread⟩, ⟨hwrite, hmwrite⟩, hrcount, hmread⟩ := hst
  obtain ⟨⟨hconf', hcap', hmask', hcon'⟩, ⟨hsto', hread'⟩, ⟨hwrite', hmwrite'⟩, hrcount', hmread'⟩ := htu
  exact ⟨⟨hconf'.trans hconf, hcap'.trans hcap, hmask'.trans hmask, hcon'.trans hcon⟩,
    ⟨hsto'.trans hsto, fun p => (hread' p).trans (hread p)⟩, ⟨hwrite'.trans hwrite, hmwrite'.trans hmwrite⟩,
    hrcount'.trans hrcount, hmread'.trans hmread⟩

/-! ### The masked run of a codec write (43_int_codec R150) -/

/-- The state with `b 0`, …, `b (n - 1)` stored from `write_index` on, each position masked by itself, and `write_count`
advanced by `n`: what a codec write leaves before its response. -/
def State.storedMasked (s : State) (n : Nat) (b : Nat → Byte) : State :=
  ({ s with storage := storeRun (position s.writeIndex s.mask) b n s.storage } : State).advanceWrite
    (BitVec.ofNat 32 n)

/-- The place of the byte `k` after a counter is the place of the counter `k` further on (R36). -/
theorem position_indexOf {s : State} (hpow : PowerOfTwoCapacity s) (c : Word) (k : Nat) :
    position (indexOf c s.mask) s.mask k = (indexOf (c + BitVec.ofNat 32 k) s.mask).toNat := by
  obtain ⟨j, hj, hcap, hmask⟩ := hpow
  exact congrArg BitVec.toNat (and_mask_add hj hcap hmask c _)

section
variable {s t : State} {a n : Nat} {b b' : Nat → Byte}

theorem wroteBytes_storedMasked : WroteBytes s (s.storedMasked n b) n b := wroteBytes_storeRun s n b

/-- Only the bytes of the run count. -/
theorem storedMasked_congr (hb : ∀ k < n, b k = b' k) : s.storedMasked n b = s.storedMasked n b' := by
  rw [State.storedMasked, storeRun_congr s.storage (fun _ _ => rfl) hb]
  rfl

/-- A run of `a + n` bytes is the run of the first `a`, then the run of the other `n`, at every capacity. -/
theorem storedMasked_add (hpow : PowerOfTwoCapacity s) :
    s.storedMasked (a + n) b = (s.storedMasked a b).storedMasked n fun k => b (a + k) := by
  have hcount : ∀ k, s.writeCount + BitVec.ofNat 32 (a + k) =
      s.writeCount + BitVec.ofNat 32 a + BitVec.ofNat 32 k := fun k => by
    rw [BitVec.ofNat_add, BitVec.add_assoc]
  have hpos : ∀ k, position s.writeIndex s.mask (a + k) = position (s.storedMasked a b).writeIndex s.mask k := fun k =>
    calc position s.writeIndex s.mask (a + k)
        = (indexOf (s.writeCount + BitVec.ofNat 32 (a + k)) s.mask).toNat := position_indexOf hpow _ _
      _ = (indexOf (s.writeCount + BitVec.ofNat 32 a + BitVec.ofNat 32 k) s.mask).toNat := by rw [hcount]
      _ = position (s.storedMasked a b).writeIndex s.mask k := (position_indexOf hpow _ _).symm
  have hstorage : (s.storedMasked (a + n) b).storage =
      ((s.storedMasked a b).storedMasked n fun k => b (a + k)).storage :=
    (storeRun_add _ b a n s.storage).trans (storeRun_congr _ (fun k _ => hpos k) fun _ _ => rfl)
  simpa [State.storedMasked, State.advanceWrite, hcount] using hstorage

/-- What a run does to the block depends on the block alone. -/
theorem blockKept_storedMasked (h : BlockKept s t) : BlockKept (s.storedMasked n b) (t.storedMasked n b) := by
  obtain ⟨⟨hconf, hcap, hmask, hcon⟩, ⟨hsto, -⟩, ⟨hwrite, hmwrite⟩, hrcount, hmread⟩ := h
  have hstorage : (t.storedMasked n b).storage = (s.storedMasked n b).storage := by
    simp only [State.storedMasked, State.advanceWrite_storage, State.writeIndex, hsto, hmask, hwrite]
  have hread : ∀ p, (t.storedMasked n b).memRead p = (s.storedMasked n b).memRead p := by
    intro p
    rw [State.memRead, State.memRead, hstorage]
    exact congrArg (fun c => Option.getD _ (Config.storageByte c p)) hcon
  exact ⟨⟨hconf, hcap, hmask, hcon⟩, ⟨hstorage, hread⟩, ⟨congrArg (· + BitVec.ofNat 32 n) hwrite, hmwrite⟩,
    hrcount, hmread⟩

/-- A run of at most `capacity` bytes stored into an empty buffer lies at the positions read next. -/
theorem storedMasked_maskedByte (hpow : PowerOfTwoCapacity s) (hempty : s.dataLength = 0)
    (hn : n ≤ s.capacity.toNat) {k : Nat} (hk : k < n) : (s.storedMasked n b).maskedByte k = b k := by
  have hindex : (s.storedMasked n b).readIndex = s.writeIndex :=
    congrArg (indexOf · s.mask) (readCount_eq_writeCount_of_empty hempty)
  obtain ⟨hstored, -⟩ := wroteBytes_storedMasked (s := s) (n := n) (b := b)
  rw [State.maskedByte, hindex]
  refine hstored k hk fun k' hk' hlt heq => hlt.ne' ?_
  exact position_injOn hpow s.writeIndex (hk'.trans_le hn) (hk.trans_le hn) heq

end

/-! ### Commands that store a masked run (42_single_byte R140, 43_int_codec R151, R153, R155, R157) -/

/-- On a configured block, `i` stores the masked run of the `n` bytes `b` and answers ST_OK. -/
def StoresRun (i : Instr) (n : Nat) (b : Nat → Byte) : Prop :=
  ∀ s : State, s.configured = true → exec i s = .next ((s.storedMasked n b).respond .ok 0)

theorem storesRun_writeInt (v : Word) : StoresRun (.writeInt v) 4 (intByte v) := fun _ hc => whenConfigured_true hc _

theorem storesRun_writeIntLe (v : Word) : StoresRun (.writeIntLe v) 4 (intByteLe v) :=
  fun _ hc => whenConfigured_true hc _

theorem storesRun_writeLong (v : Long) : StoresRun (.writeLong v) 8 (longByte v) :=
  fun _ hc => whenConfigured_true hc _

theorem storesRun_writeLongLe (v : Long) : StoresRun (.writeLongLe v) 8 (longByteLe v) :=
  fun _ hc => whenConfigured_true hc _

/-- A single byte is a run of one: an index is masked already. -/
theorem storesRun_writeByte (b : Nat → Byte) : StoresRun (.writeByte (b 0)) 1 b := by
  intro s hc
  have hpos : position s.writeIndex s.mask 0 = s.writeIndex.toNat := by
    simp [position, State.writeIndex, indexOf, BitVec.and_assoc]
  rw [exec_writeByte hc, State.storedMasked, storeRun, storeRun, hpos]
  rfl

section
variable {i : Instr} {is : List Instr} {s : State} {a n : Nat} {b b' : Nat → Byte}

theorem StoresRun.congr (h : StoresRun i n b) (hb : ∀ k < n, b k = b' k) : StoresRun i n b' :=
  fun s hc => storedMasked_congr (s := s) hb ▸ h s hc

/-- What a command that stores a masked run leaves, in full. -/
theorem exec_of_storesRun (h : StoresRun i n b) (hc : s.configured = true) :
    ∃ t, exec i s = .next t ∧ WroteBytes s t n b ∧ t.writeCount = s.writeCount + BitVec.ofNat 32 n ∧
      t.markedWriteCount = s.markedWriteCount ∧ ControlKept s t ∧ ReadSideKept s t ∧ AnsweredPlain s t .ok 0 :=
  ⟨_, h s hc, wroteBytes_storedMasked, rfl, rfl, ⟨rfl, rfl, rfl, rfl⟩, ⟨rfl, rfl⟩, ⟨rfl, rfl, rfl⟩, rfl⟩

/-- One after another the commands leave the block as the masked run of the `n` bytes `b` does. -/
def AllStoreRun (is : List Instr) (n : Nat) (b : Nat → Byte) : Prop :=
  ∀ s : State, PowerOfTwoCapacity s → s.configured = true →
    ∃ t, execAll is s = .next t ∧ BlockKept (s.storedMasked n b) t

theorem allStoreRun_nil (b : Nat → Byte) : AllStoreRun [] 0 b := fun s _ _ =>
  ⟨s, rfl, ⟨rfl, rfl, rfl, rfl⟩, ⟨rfl, fun _ => rfl⟩, ⟨(BitVec.add_zero s.writeCount).symm, rfl⟩, rfl, rfl⟩

/-- A command that stores the first `a` bytes, before commands that store the others. -/
theorem allStoreRun_cons (hi : StoresRun i a b) (his : AllStoreRun is n fun k => b (a + k)) :
    AllStoreRun (i :: is) (a + n) b := by
  intro s hpow hc
  obtain ⟨t, hexec, hkept⟩ := his ((s.storedMasked a b).respond .ok 0) hpow hc
  refine ⟨t, ?_, ?_⟩
  · simpa only [execAll, hi s hc] using hexec
  · rw [storedMasked_add hpow]
    exact blockKept_trans (blockKept_storedMasked (blockKept_respond _ _ _)) hkept

/-- A command and commands that store the same run do the same to the block. -/
theorem sameEffect_execAll (hpow : PowerOfTwoCapacity s) (hc : s.configured = true) (hi : StoresRun i n b)
    (his : AllStoreRun is n b) : SameEffect (exec i s) (execAll is s) := by
  obtain ⟨t, hexec, hkept⟩ := his s hpow hc
  exact ⟨_, t, hi s hc, hexec, hkept⟩

end

/-- Settles O31: `write_int` stores the run of its bytes, most significant first. -/
theorem writeIntStoresBigEndian : Obligations.WriteIntStoresBigEndian :=
  fun _ v hc => ⟨encodeA_eq_append _ v, exec_of_storesRun (storesRun_writeInt v) hc⟩

/-- Settles O32: `write_int_le` stores the run of its bytes, least significant first. -/
theorem writeIntLeStoresLittleEndian : Obligations.WriteIntLeStoresLittleEndian :=
  fun _ v hc => ⟨encodeA_eq_append _ v, exec_of_storesRun (storesRun_writeIntLe v) hc⟩

/-- Settles O33: `write_long` stores the run of its bytes, most significant first. -/
theorem writeLongStoresBigEndian : Obligations.WriteLongStoresBigEndian :=
  fun _ v hc => ⟨encodeV64_eq_append _ v, exec_of_storesRun (storesRun_writeLong v) hc⟩

/-- Settles O34: `write_long_le` stores the run of its bytes, least significant first. -/
theorem writeLongLeStoresLittleEndian : Obligations.WriteLongLeStoresLittleEndian :=
  fun _ v hc => ⟨encodeV64_eq_append _ v, exec_of_storesRun (storesRun_writeLongLe v) hc⟩

/-! ### Commands that fetch a masked run (43_int_codec R152, R154, R156, R158) -/

/-- On a configured block, `i` answers ST_OK with `join` of the bytes from `read_index` on, each position masked by
itself, and advances `read_count` by `n`; `join` takes no byte but the first `n`. -/
structure FetchesRun (i : Instr) (n : Nat) (join : (Nat → Byte) → Long) : Prop where
  exec_eq (s : State) : s.configured = true →
    exec i s = .next ((s.advanceRead (BitVec.ofNat 32 n)).respond .ok (join s.maskedByte))
  join_congr (b b' : Nat → Byte) : (∀ k < n, b k = b' k) → join b = join b'

theorem fetchesRun_readInt : FetchesRun .readInt 4 fun b => zext64 (joinInt b) :=
  ⟨fun _ hc => whenConfigured_true hc _, fun b b' h => by simp [joinInt, h]⟩

theorem fetchesRun_readIntLe : FetchesRun .readIntLe 4 fun b => zext64 (joinIntLe b) :=
  ⟨fun _ hc => whenConfigured_true hc _, fun b b' h => by simp [joinIntLe, h]⟩

theorem fetchesRun_readLong : FetchesRun .readLong 8 joinLong :=
  ⟨fun _ hc => whenConfigured_true hc _, fun b b' h => by simp [joinLong, h]⟩

theorem fetchesRun_readLongLe : FetchesRun .readLongLe 8 joinLongLe :=
  ⟨fun _ hc => whenConfigured_true hc _, fun b b' h => by simp [joinLongLe, h]⟩

/-- What a command that fetches a masked run leaves, in full. -/
theorem exec_of_fetchesRun {i : Instr} {n : Nat} {join : (Nat → Byte) → Long} {s : State} (h : FetchesRun i n join)
    (hc : s.configured = true) :
    ∃ t, exec i s = .next t ∧ t.readCount = s.readCount + BitVec.ofNat 32 n ∧
      t.markedReadCount = s.markedReadCount ∧ ControlKept s t ∧ StorageKept s t ∧ WriteSideKept s t ∧
      AnsweredPlain s t .ok (join s.maskedByte) :=
  ⟨_, h.exec_eq s hc, rfl, rfl, ⟨rfl, rfl, rfl, rfl⟩, ⟨rfl, fun _ => rfl⟩, ⟨rfl, rfl⟩, ⟨rfl, rfl, rfl⟩, rfl⟩

/-- Settles O35: `read_int` fetches four bytes and joins them, the first most significant. -/
theorem readIntJoinsBigEndian : Obligations.ReadIntJoinsBigEndian :=
  ⟨by decide, fun _ hc => exec_of_fetchesRun fetchesRun_readInt hc⟩

/-- Settles O36: `read_int_le` fetches four bytes and joins them, the first least significant. -/
theorem readIntLeJoinsLittleEndian : Obligations.ReadIntLeJoinsLittleEndian :=
  ⟨by decide, fun _ hc => exec_of_fetchesRun fetchesRun_readIntLe hc⟩

/-- Settles O37: `read_long` fetches eight bytes and joins them, the first most significant. -/
theorem readLongJoinsBigEndian : Obligations.ReadLongJoinsBigEndian :=
  ⟨by decide, fun _ hc => exec_of_fetchesRun fetchesRun_readLong hc⟩

/-- Settles O38: `read_long_le` fetches eight bytes and joins them, the first least significant. -/
theorem readLongLeJoinsLittleEndian : Obligations.ReadLongLeJoinsLittleEndian :=
  ⟨by decide, fun _ hc => exec_of_fetchesRun fetchesRun_readLongLe hc⟩

/-! ### The laws of the codecs (43_int_codec R160) -/

/-- A run stored into an empty buffer with room for it is the run fetched next. -/
theorem readsBack_of_run {i j : Instr} {n : Nat} {b : Nat → Byte} {join : (Nat → Byte) → Long} {value : Long}
    {s : State} (hi : StoresRun i n b) (hj : FetchesRun j n join) (hvalue : join b = value)
    (hpow : PowerOfTwoCapacity s) (hc : s.configured = true) (hempty : s.dataLength = 0)
    (hn : n ≤ s.capacity.toNat) : ReadsBack i j s value := by
  have hjoin : join (s.storedMasked n b).maskedByte = value :=
    (hj.join_congr _ _ fun k hk => storedMasked_maskedByte hpow hempty hn hk).trans hvalue
  exact ⟨_, _, _, _, hi s hc, hj.exec_eq ((s.storedMasked n b).respond .ok 0) hc, rfl, rfl, hjoin⟩

/-- Settles O39: a run read back as it was stored, its bytes joined in the order of the writer or in the other. -/
theorem codecsReadBack : Obligations.CodecsReadBack := by
  intro s hinv hc hempty
  have hpow := powerOfTwoCapacity_of_inv hinv hc
  refine ⟨fun h4 v => ⟨?_, ?_, ?_, ?_⟩, fun h8 v => ⟨?_, ?_, ?_, ?_⟩⟩
  · exact readsBack_of_run (storesRun_writeInt v) fetchesRun_readInt (congrArg zext64 (joinInt_intByte v))
      hpow hc hempty h4
  · exact readsBack_of_run (storesRun_writeIntLe v) fetchesRun_readIntLe (congrArg zext64 (joinIntLe_intByteLe v))
      hpow hc hempty h4
  · exact readsBack_of_run (storesRun_writeInt v) fetchesRun_readIntLe (congrArg zext64 (joinIntLe_intByte v))
      hpow hc hempty h4
  · exact readsBack_of_run (storesRun_writeIntLe v) fetchesRun_readInt (congrArg zext64 (joinInt_intByteLe v))
      hpow hc hempty h4
  · exact readsBack_of_run (storesRun_writeLong v) fetchesRun_readLong (joinLong_longByte v) hpow hc hempty h8
  · exact readsBack_of_run (storesRun_writeLongLe v) fetchesRun_readLongLe (joinLongLe_longByteLe v) hpow hc hempty h8
  · exact readsBack_of_run (storesRun_writeLong v) fetchesRun_readLongLe (joinLongLe_longByte v) hpow hc hempty h8
  · exact readsBack_of_run (storesRun_writeLongLe v) fetchesRun_readLong (joinLong_longByteLe v) hpow hc hempty h8

/-- The run of four bytes is four single bytes, one after another. -/
theorem allStoreRun_fourWriteBytes (b : Nat → Byte) :
    AllStoreRun [.writeByte (b 0), .writeByte (b 1), .writeByte (b 2), .writeByte (b 3)] 4 b :=
  allStoreRun_cons (storesRun_writeByte _) <| allStoreRun_cons (storesRun_writeByte _) <|
    allStoreRun_cons (storesRun_writeByte _) <| allStoreRun_cons (storesRun_writeByte _) <| allStoreRun_nil _

/-- The operand array of the bulk write in R160: the four bytes `b 0`, …, `b 3`. -/
def fourByteArray (b : Nat → Byte) : OperandArray where
  valid := true
  length := 4
  number := 0
  bytes := [(0, b 0), (1, b 1), (2, b 2), (3, b 3)]

theorem fourByteArray_byte (b : Nat → Byte) {k : Nat} (hk : k < 4) : (fourByteArray b).byte k = b k := by
  interval_cases k <;> rfl

/-- A bulk write of a whole array of four bytes, where they fit, stores the masked run of them. -/
theorem exec_write_fourByteArray {s : State} (b : Nat → Byte) (hinv : Inv s) (hc : s.configured = true)
    (h4 : 4 ≤ s.capacity.toNat) (harray : s.operand = fourByteArray b) :
    exec (.write true 4 0 4) s = .next ((s.storedMasked 4 b).respond .ok 0) := by
  have hproceeds : WriteProceeds s true 4 0 := ⟨hc, rfl, by decide, by decide⟩
  have hbytes : ∀ k < 4, s.oaRead (0 + k) = b k := fun k hk => by
    rw [State.oaRead, harray, Nat.zero_add, fourByteArray_byte b hk]
  calc exec (.write true 4 0 4) s
      = .next ((s.copiedIn 0 4).respond .ok 0) :=
        exec_write hinv hproceeds (by decide) (fitsSplit_of_le_capacity hinv hc s.writeCount h4)
    _ = .next ((s.storedMasked 4 b).respond .ok 0) :=
        congrArg (fun t => Host.Outcome.next (State.respond t .ok 0)) (storedMasked_congr hbytes)

/-- The invariant asks of an operand array that its bytes are in canonical form. -/
theorem inv_fourByteArray {s : State} (b : Nat → Byte) (hinv : Inv s) : Inv { s with operand := fourByteArray b } := by
  obtain ⟨hcontrol, hwf, hbelow, -, hports⟩ := hinv
  exact ⟨hcontrol, hwf, hbelow, by simp [fourByteArray, Memory.wf], hports⟩

/-- Settles O40: `write_int`, the four single bytes and the bulk write all store the same masked run. -/
theorem writeIntIsFourWriteBytes : Obligations.WriteIntIsFourWriteBytes := by
  intro s v hinv hc
  have hpow := powerOfTwoCapacity_of_inv hinv hc
  refine ⟨sameEffect_execAll hpow hc (storesRun_writeInt v) (allStoreRun_fourWriteBytes (intByte v)), fun h4 => ?_⟩
  exact ⟨_, _, storesRun_writeInt v s hc,
    exec_write_fourByteArray (intByte v) (inv_fourByteArray (intByte v) hinv) hc h4 rfl,
    ⟨rfl, rfl, rfl, rfl⟩, ⟨rfl, fun _ => rfl⟩, ⟨rfl, rfl⟩, rfl, rfl⟩

/-- A long, most significant byte first, is its high half and then its low half. -/
theorem allStoreRun_twoWriteInts (v : Long) :
    AllStoreRun [.writeInt (v.extractLsb' 32 32), .writeInt (v.extractLsb' 0 32)] 8 (longByte v) :=
  allStoreRun_cons ((storesRun_writeInt _).congr fun _ => intByte_high v) <|
    allStoreRun_cons ((storesRun_writeInt _).congr fun k _ => intByte_low v k) <| allStoreRun_nil _

/-- Least significant byte first, it is its low half and then its high half. -/
theorem allStoreRun_twoWriteIntLes (v : Long) :
    AllStoreRun [.writeIntLe (v.extractLsb' 0 32), .writeIntLe (v.extractLsb' 32 32)] 8 (longByteLe v) :=
  allStoreRun_cons ((storesRun_writeIntLe _).congr fun _ => intByteLe_low v) <|
    allStoreRun_cons ((storesRun_writeIntLe _).congr fun _ => intByteLe_high v) <| allStoreRun_nil _

/-- Settles O41: the two sides of each law store the same masked run. -/
theorem longWritesAreTwoIntWrites : Obligations.LongWritesAreTwoIntWrites := by
  intro s hinv hc
  have hpow := powerOfTwoCapacity_of_inv hinv hc
  refine ⟨fun v => ⟨sameEffect_execAll hpow hc (storesRun_writeLong v) (allStoreRun_twoWriteInts v),
    sameEffect_execAll hpow hc (storesRun_writeLongLe v) (allStoreRun_twoWriteIntLes v)⟩, fun v => ?_⟩
  have hle : StoresRun (.writeIntLe (rev4 v)) 4 (intByte v) :=
    (storesRun_writeIntLe (rev4 v)).congr fun _ => intByteLe_rev4 v
  exact ⟨_, _, storesRun_writeInt v s hc, hle s hc, blockKept_refl _⟩

end Sys2Proof.Machine

/-! PROOFS of the family 44_mark_reset: what each of the four commands leaves of a configured block (R170 to R173), and
that a rollback of writes is exact (R171, 95_test_vectors S4). -/

namespace Sys2Proof.Machine

/-! ### The four commands on a configured block (44_mark_reset R170 to R173) -/

section
variable {s : State} (hc : s.configured = true)
include hc

theorem exec_markWriteIndex :
    exec .markWriteIndex s = .next (({ s with markedWriteCount := s.writeCount } : State).respond .ok 0) :=
  whenConfigured_true hc _

theorem exec_resetWriteIndex :
    exec .resetWriteIndex s = .next (({ s with writeCount := s.markedWriteCount } : State).respond .ok 0) :=
  whenConfigured_true hc _

theorem exec_markReadIndex :
    exec .markReadIndex s = .next (({ s with markedReadCount := s.readCount } : State).respond .ok 0) :=
  whenConfigured_true hc _

theorem exec_resetReadIndex :
    exec .resetReadIndex s = .next (({ s with readCount := s.markedReadCount } : State).respond .ok 0) :=
  whenConfigured_true hc _

end

/-- Settles O42: the mark of the write side is the one field that is written. -/
theorem markWriteIndexSnapshots : Obligations.MarkWriteIndexSnapshots := by
  refine ⟨by decide, fun s hc => ?_⟩
  exact ⟨_, exec_markWriteIndex hc, rfl, rfl, rfl, ⟨rfl, rfl, rfl, rfl⟩, ⟨rfl, fun _ => rfl⟩, ⟨rfl, rfl⟩,
    ⟨rfl, rfl, rfl⟩, rfl⟩

/-- Settles O43: `write_count` is the one field that is written. -/
theorem resetWriteIndexRewinds : Obligations.ResetWriteIndexRewinds := by
  refine ⟨by decide, fun s hc => ?_⟩
  exact ⟨_, exec_resetWriteIndex hc, rfl, rfl, ⟨rfl, rfl, rfl, rfl⟩, ⟨rfl, fun _ => rfl⟩, ⟨rfl, rfl⟩,
    ⟨rfl, rfl, rfl⟩, rfl⟩

/-- Settles O44: the mark of the read side is the one field that is written. -/
theorem markReadIndexSnapshots : Obligations.MarkReadIndexSnapshots := by
  refine ⟨by decide, fun s hc => ?_⟩
  exact ⟨_, exec_markReadIndex hc, rfl, rfl, ⟨rfl, rfl, rfl, rfl⟩, ⟨rfl, fun _ => rfl⟩, ⟨rfl, rfl⟩,
    ⟨rfl, rfl, rfl⟩, rfl⟩

/-- Settles O45: `read_count` is the one field that is written, and the distance from the mark to `write_count` goes
through the old `read_count`. -/
theorem resetReadIndexRewinds : Obligations.ResetReadIndexRewinds := by
  refine ⟨by decide, fun s hc => ?_⟩
  have hlength : s.writeCount - s.markedReadCount = s.dataLength + (s.readCount - s.markedReadCount) :=
    (sub_add_sub_cancel s.writeCount s.readCount s.markedReadCount).symm
  exact ⟨_, exec_resetReadIndex hc, rfl, rfl, hlength, ⟨rfl, rfl, rfl, rfl⟩, ⟨rfl, fun _ => rfl⟩, ⟨rfl, rfl⟩,
    ⟨rfl, rfl, rfl⟩, rfl⟩

/-! ### Runs of commands -/

/-- A run that starts with `i` goes on from the state `i` leaves. -/
theorem execAll_cons_eq_next {i : Instr} {is : List Instr} {s u : State} (h : execAll (i :: is) s = .next u) :
    ∃ t, exec i s = .next t ∧ execAll is t = .next u := by
  simp only [execAll] at h
  split at h
  next t hexec => exact ⟨t, hexec, h⟩
  · exact nomatch h
  · exact nomatch h

/-- What every command of a list keeps, a run of the list keeps. -/
theorem execAll_keeps {P : State → Prop} {is : List Instr}
    (hkeeps : ∀ i ∈ is, ∀ s t : State, P s → exec i s = .next t → P t) {s u : State} (hs : P s)
    (hrun : execAll is s = .next u) : P u := by
  induction is generalizing s with
  | nil => exact Host.Outcome.next.inj hrun ▸ hs
  | cons i is ih =>
    obtain ⟨t, hexec, hrest⟩ := execAll_cons_eq_next hrun
    have ht : P t := hkeeps i List.mem_cons_self s t hs hexec
    exact ih (fun j hj => hkeeps j (List.mem_cons_of_mem i hj)) ht hrest

/-! ### The rollback of writes (44_mark_reset R171, R174) -/

/-- A command of the write family is of no family, and is none of the single commands, that write `read_count` or the
mark of the write side (10_state R24, 44_mark_reset R174). -/
theorem not_otherFamily_of_writer {i : Instr} (hi : isWriter i = true) :
    isConstruction i = false ∧ isReader i = false ∧ instrOp i ≠ .skipReadBytes ∧ i ≠ .resetReadIndex ∧
      i ≠ .markWriteIndex := by
  cases i with
  | write | writeByte | writeInt | writeIntLe | writeLong | writeLongLe => exact ⟨rfl, rfl, nofun, nofun, nofun⟩
  | _ => exact absurd hi Bool.false_ne_true

theorem readCount_of_writer {i : Instr} {s t : State} (hi : isWriter i = true) (h : exec i s = .next t) :
    t.readCount = s.readCount := by
  obtain ⟨hconstruction, hreader, hskip, hreset, -⟩ := not_otherFamily_of_writer hi
  obtain ⟨-, hwriters, -, -⟩ := countersWrittenOnlyByTheirCommands i s t h
  by_contra hne
  simpa [hconstruction, hreader, hskip, hreset] using hwriters hne

theorem markedWriteCount_of_writer {i : Instr} {s t : State} (hi : isWriter i = true) (h : exec i s = .next t) :
    t.markedWriteCount = s.markedWriteCount := by
  obtain ⟨hconstruction, -, -, -, hmark⟩ := not_otherFamily_of_writer hi
  obtain ⟨-, -, hwriters, -⟩ := countersWrittenOnlyByTheirCommands i s t h
  by_contra hne
  simpa [hconstruction, hmark] using hwriters hne

/-- In `t`, `reset_write_index` brings back `write_count` as it is in `s`, with `read_count` as it is there. -/
def RollsBackTo (s t : State) : Prop :=
  t.configured = true ∧ t.markedWriteCount = s.writeCount ∧ t.readCount = s.readCount

/-- The mark makes the state one that rolls back to the state before. -/
theorem rollsBackTo_of_mark {s t : State} (hc : s.configured = true) (h : exec .markWriteIndex s = .next t) :
    RollsBackTo s t := by
  obtain rfl := Host.Outcome.next.inj ((exec_markWriteIndex hc).symm.trans h)
  exact ⟨hc, rfl, rfl⟩

/-- A write, whatever it stores and however far it goes, leaves the way back open. -/
theorem RollsBackTo.writer {s t u : State} {i : Instr} (ht : RollsBackTo s t) (hi : isWriter i = true)
    (h : exec i t = .next u) : RollsBackTo s u := by
  obtain ⟨hc, hmark, hread⟩ := ht
  exact ⟨configured_exec hc h, (markedWriteCount_of_writer hi h).trans hmark,
    (readCount_of_writer hi h).trans hread⟩

/-- The reset goes the way back. -/
theorem RollsBackTo.reset {s t : State} (ht : RollsBackTo s t) :
    ∃ v, exec .resetWriteIndex t = .next v ∧ v.dataLength = s.dataLength ∧ v.writeCount = s.writeCount ∧
      v.readCount = s.readCount := by
  obtain ⟨hc, hmark, hread⟩ := ht
  have hlength : t.markedWriteCount - t.readCount = s.dataLength := by rw [hmark, hread, State.dataLength]
  exact ⟨_, exec_resetWriteIndex hc, hlength, hmark, hread⟩

/-- Settles O46: the mark opens the way back, every write keeps it open, the reset goes it. -/
theorem writeRollbackIsExact : Obligations.WriteRollbackIsExact := by
  intro s u is hc hwriters hrun
  obtain ⟨t, hmark, hwrites⟩ := execAll_cons_eq_next hrun
  have ht : RollsBackTo s t := rollsBackTo_of_mark hc hmark
  have hu : RollsBackTo s u := execAll_keeps (fun i hi _ _ hv => hv.writer (hwriters i hi)) ht hwrites
  exact hu.reset

end Sys2Proof.Machine

/-! PROOFS of the family 45_skip: what the two commands leave of a configured block (R180, R181), and how far each moves
`data_length`. -/

namespace Sys2Proof.Machine

/-! ### The two commands on a configured block -/

/-- `skip_write_bytes` of no more than the free space advances `write_count` (R180). -/
theorem exec_skipWriteBytes_of_le_remainingLength {s : State} {count : Word} (hc : s.configured = true)
    (hfree : (count.toNat : Int) ≤ s.remainingLength) :
    exec (.skipWriteBytes count) s = .next ((s.advanceWrite count).respond .ok 0) :=
  (whenConfigured_true hc _).trans (if_neg (not_lt.2 hfree))

/-- `skip_read_bytes` advances `read_count`, whatever the count (R181). -/
theorem exec_skipReadBytes {s : State} (hc : s.configured = true) (count : Word) :
    exec (.skipReadBytes count) s = .next ((s.advanceRead count).respond .ok 0) :=
  whenConfigured_true hc _

/-! ### How far `data_length` moves -/

/-- What is claimed within the free space is added without wrap: the sum is at most `capacity`, a 32-bit number. -/
theorem advanceWrite_dataLength_toNat_of_le {s : State} {n : Word} (hfree : (n.toNat : Int) ≤ s.remainingLength) :
    (s.advanceWrite n).dataLength.toNat = s.dataLength.toNat + n.toNat := by
  have hrem : s.remainingLength = (s.capacity.toNat : Int) - (s.dataLength.toNat : Int) := rfl
  have hcap : s.capacity.toNat < 2 ^ 32 := s.capacity.isLt
  rw [State.advanceWrite_dataLength, BitVec.toNat_add_of_lt (by omega)]

/-- What is discarded within the unread data is taken off without wrap. -/
theorem advanceRead_dataLength_toNat_of_le {s : State} {n : Word} (hn : n.toNat ≤ s.dataLength.toNat) :
    (s.advanceRead n).dataLength.toNat = s.dataLength.toNat - n.toNat := by
  rw [State.advanceRead_dataLength, BitVec.toNat_sub_of_le hn]

/-- What is discarded beyond the unread data wraps below zero by the excess. -/
theorem advanceRead_dataLength_toNat_of_lt {s : State} {n : Word} (hn : s.dataLength.toNat < n.toNat) :
    (s.advanceRead n).dataLength.toNat = 2 ^ 32 - (n.toNat - s.dataLength.toNat) := by
  rw [State.advanceRead_dataLength, BitVec.toNat_sub_of_lt hn]

/-- Settles O47: `write_count` is the one field that is written, and the free space bounds the new `data_length`. -/
theorem skipWriteClaimsFreeSpace : Obligations.SkipWriteClaimsFreeSpace := by
  intro s count hc hfree
  have hlength := advanceWrite_dataLength_toNat_of_le hfree
  have hbounded : Bounded (s.advanceWrite count) := bounded_advanceWrite hfree
  exact ⟨_, exec_skipWriteBytes_of_le_remainingLength hc hfree, rfl, rfl, hlength, hbounded, ⟨rfl, rfl, rfl, rfl⟩,
    ⟨rfl, fun _ => rfl⟩, ⟨rfl, rfl⟩, ⟨rfl, rfl, rfl⟩, rfl⟩

/-- Settles O49: `read_count` is the one field that is written, and `data_length` falls by `count` modulo 2^32. -/
theorem skipReadDiscards : Obligations.SkipReadDiscards := by
  intro s count hc
  exact ⟨_, exec_skipReadBytes hc count, rfl, rfl, advanceRead_dataLength_toNat_of_le,
    advanceRead_dataLength_toNat_of_lt, ⟨rfl, rfl, rfl, rfl⟩, ⟨rfl, fun _ => rfl⟩, ⟨rfl, rfl⟩, ⟨rfl, rfl, rfl⟩, rfl⟩

end Sys2Proof.Machine

/-! PROOFS of the family 46_construction: what `IsPow2` picks out (R192), and that a construction builds a fresh buffer
of a power-of-two size or rejects any other (R190, R191). -/

namespace Sys2Proof.Machine

/-! ### The power-of-two test (46_construction R192) -/

theorem isPow2_iff {n : Word} : isPow2 n = true ↔ n ≠ 0 ∧ n &&& (n - 1) = 0 := by simp [isPow2]

/-- A power of two passes the test: masking with `n - 1` takes the remainder by `n`, of `n` itself. -/
theorem isPow2_of_toNat_eq_two_pow {n : Word} {j : Nat} (h : n.toNat = 2 ^ j) : isPow2 n = true := by
  have hpos : 1 ≤ 2 ^ j := Nat.one_le_two_pow
  refine isPow2_iff.2 ⟨fun h0 => ?_, BitVec.eq_of_toNat_eq ?_⟩
  · have hzero : n.toNat = 0 := congrArg BitVec.toNat h0
    omega
  · calc (n &&& (n - 1)).toNat = n.toNat % 2 ^ j := toNat_and_mask h rfl n
      _ = 0 := by rw [h, Nat.mod_self]

/-- Settles O17: zero apart, the powers of two are the numbers with no bit in common with their predecessor, and 32 bits
hold those up to 2^31. -/
theorem isPow2IsPowerOfTwo : Obligations.IsPow2IsPowerOfTwo := fun _ =>
  ⟨isPow2_iff, toNat_eq_two_pow_of_isPow2, fun ⟨_, _, h⟩ => isPow2_of_toNat_eq_two_pow h⟩

/-! ### The two constructions (46_construction R190, R191) -/

/-- The word of `init_array` with an array (30_encoding R82). -/
theorem encode_initArray_eq_append (len : Word) : encode (.initArray true len) = len ++ 0#64 ++ 0x102#32 := by
  have hfields : encode (.initArray true len) = len ++ 0#32 ++ 0#32 ++ 0x102#32 := rfl
  have hzeros : len ++ 0#32 ++ 0#32 = len ++ 0#64 := BitVec.append_assoc
  rw [hfields, hzeros]

section
variable (s : State) {n : Word}

/-- The bytes of the operand array as storage, position `i` holding array byte `i`: what `init_array` loads. -/
def State.loadedStorage (n : Word) : Memory := storeRun (fun i => i) s.oaRead n.toNat []

theorem loadedStorage_read? {i : Nat} (hi : i < n.toNat) :
    Memory.read? (s.loadedStorage n) i = some (s.oaRead i) :=
  storeRun_read s.oaRead [] hi fun _ _ hlt => hlt.ne'

theorem loadedStorage_read?_of_le {p : Nat} (hp : n.toNat ≤ p) : Memory.read? (s.loadedStorage n) p = none :=
  storeRun_read_other s.oaRead [] fun _ hk => (hk.trans_le hp).ne'

theorem construct_loadedStorage_memRead {i : Nat} (hi : i < n.toNat) :
    (s.construct n (s.loadedStorage n)).memRead i = s.oaRead i := by
  rw [State.memRead, State.construct_storage, loadedStorage_read? s hi, Option.getD_some]

theorem exec_initSize_of_isPow2 (h : isPow2 n = true) :
    exec (.initSize n) s = .next ((s.construct n []).respond .ok 0) := if_pos h

theorem exec_initSize_of_not_isPow2 (h : isPow2 n = false) : exec (.initSize n) s = raise s .errConfig :=
  if_neg (ne_true_of_eq_false h)

theorem exec_initArray_of_isPow2 (h : isPow2 n = true) :
    exec (.initArray true n) s = .next ((s.construct n (s.loadedStorage n)).respond .ok 0) := if_pos h

theorem exec_initArray_of_not_isPow2 (h : isPow2 n = false) : exec (.initArray true n) s = raise s .errConfig :=
  if_neg (ne_true_of_eq_false h)

/-- An error raised in the state a command began in is answered with every field of the block kept. -/
theorem exec_answersError_of_raise_self {i : Instr} {st : Status} (h : exec i s = raise s st) :
    ∃ t, exec i s = .next t ∧ BlockKept s t ∧ AnsweredPlain s t st 0 :=
  ⟨_, h, blockKept_respond _ _ _, answeredPlain_respond _ _ _⟩

end

/-- Settles O20: past the null check and the length check, the run from position 0 into empty storage loads the array. -/
theorem initArrayLoadsOrRejects : Obligations.InitArrayLoadsOrRejects := by
  refine fun s len => ⟨encode_initArray_eq_append len, fun hpow => ?_, fun hbad => ?_, rfl⟩
  · exact ⟨_, exec_initArray_of_isPow2 s hpow, rfl, rfl, rfl, fun _ => construct_loadedStorage_memRead s,
      fun _ => loadedStorage_read?_of_le s, rfl, rfl, rfl, rfl, ⟨rfl, rfl, rfl⟩, rfl⟩
  · exact exec_answersError_of_raise_self s (exec_initArray_of_not_isPow2 s hbad)

/-- Settles O19: the new block lists no storage byte, and a rejected size leaves the block it found. -/
theorem initSizeBuildsOrRejects : Obligations.InitSizeBuildsOrRejects := by
  refine fun s size => ⟨encodeA_eq_append _ size, fun hpow => ?_, fun hbad => ?_⟩
  · exact ⟨_, exec_initSize_of_isPow2 s hpow, rfl, rfl, rfl, Memory.read?_nil, rfl, rfl, rfl, rfl,
      ⟨rfl, rfl, rfl⟩, rfl⟩
  · exact exec_answersError_of_raise_self s (exec_initSize_of_not_isPow2 s hbad)

end Sys2Proof.Machine

/-! PROOFS of the family 60_exceptions: how a command can end and for which cause (R201 to R203, R205 to R207), and the
answer to an illegal word (R204). -/

namespace Sys2Proof.Machine

/-! ### The illegal word (60_exceptions R204) -/

/-- The step on a word that does not decode is the error on the state with the word taken. -/
theorem step_of_decode_error {s : State} {w : CommandWord} {array : Memory} {rest : List Input} {e : DecodeError}
    (hin : s.inputs = .command w array :: rest) (hdec : decode w = .error e) :
    step s = raise (s.take w array rest) .illegal := by
  simp only [step, hin, hdec, illegalWord]

/-- Settles O6: taking the word writes no field of the block, and neither does the error. -/
theorem stepAnswersIllegalWord : Obligations.StepAnswersIllegalWord := by
  intro s w array rest e hin hdec
  exact ⟨_, step_of_decode_error hin hdec, blockKept_respond (s.take w array rest) _ _, rfl, rfl, rfl⟩

/-! ### The branches of the bulk copies on a configured block (41_bulk_copy R120 to R127, 60_exceptions R208) -/

section
variable {s : State} {av : Bool} {len offset count : Word}

theorem not_noopCase_of_writeProceeds (h : WriteProceeds s av len offset) :
    ¬ NoopCase (.write av len offset count) s := by
  obtain ⟨-, rfl, hlen, hoffset⟩ := h
  rintro (hav | hzero | hbeyond)
  · exact absurd hav.symm Bool.false_ne_true
  · exact hlen hzero
  · exact hbeyond.not_ge hoffset

theorem not_noopCase_of_readProceeds (h : ReadProceeds s av len offset count) :
    ¬ NoopCase (.readBytes av len offset count) s := by
  obtain ⟨-, rfl, hoffset, hcount⟩ := h
  rintro (hav | hbeyond | hshort)
  · exact absurd hav.symm Bool.false_ne_true
  · exact hbeyond.not_ge hoffset
  · exact hshort.not_ge hcount

/-- `write` is a silent no-op, or past the checks for one it reads beyond its source or copies. -/
theorem exec_write_cases (hc : s.configured = true) :
    (NoopCase (.write av len offset count) s ∧ exec (.write av len offset count) s = silentNoop s) ∨
    (WriteProceeds s av len offset ∧ len.toNat < offset.toNat + count.toNat ∧
      exec (.write av len offset count) s = faultDomain .srcRange) ∨
    (WriteProceeds s av len offset ∧ offset.toNat + count.toNat ≤ len.toNat ∧
      exec (.write av len offset count) s = copyInAndAdvance offset count s) := by
  rw [exec, execWrite, whenConfigured_true hc]
  split_ifs with hav hlen hoffset hover
  · exact .inl ⟨.inl hav, rfl⟩
  · exact .inl ⟨.inr (.inl hlen), rfl⟩
  · exact .inl ⟨.inr (.inr hoffset), rfl⟩
  · exact .inr (.inl ⟨⟨hc, eq_true_of_ne_false hav, hlen, not_lt.1 hoffset⟩, hover, rfl⟩)
  · exact .inr (.inr ⟨⟨hc, eq_true_of_ne_false hav, hlen, not_lt.1 hoffset⟩, not_lt.1 hover, rfl⟩)

/-- `read_bytes` is a silent no-op, or past the checks for one it writes beyond its destination or copies. -/
theorem exec_readBytes_cases (hc : s.configured = true) :
    (NoopCase (.readBytes av len offset count) s ∧ exec (.readBytes av len offset count) s = silentNoop s) ∨
    (ReadProceeds s av len offset count ∧ len.toNat < offset.toNat + count.toNat ∧
      exec (.readBytes av len offset count) s = faultDomain .dstRange) ∨
    (ReadProceeds s av len offset count ∧ offset.toNat + count.toNat ≤ len.toNat ∧
      exec (.readBytes av len offset count) s = copyOutAndAdvance offset count s) := by
  rw [exec, execReadBytes, whenConfigured_true hc]
  split_ifs with hav hoffset hshort hover
  · exact .inl ⟨.inl hav, rfl⟩
  · exact .inl ⟨.inr (.inl hoffset), rfl⟩
  · exact .inl ⟨.inr (.inr hshort), rfl⟩
  · exact .inr (.inl ⟨⟨hc, eq_true_of_ne_false hav, not_lt.1 hoffset, not_lt.1 hshort⟩, hover, rfl⟩)
  · exact .inr (.inr ⟨⟨hc, eq_true_of_ne_false hav, not_lt.1 hoffset, not_lt.1 hshort⟩, not_lt.1 hover, rfl⟩)

theorem exec_write_of_noopCase (hc : s.configured = true) (h : NoopCase (.write av len offset count) s) :
    exec (.write av len offset count) s = silentNoop s := by
  rcases exec_write_cases hc with ⟨-, hexec⟩ | ⟨hproceeds, -⟩ | ⟨hproceeds, -⟩
  · exact hexec
  · exact absurd h (not_noopCase_of_writeProceeds hproceeds)
  · exact absurd h (not_noopCase_of_writeProceeds hproceeds)

theorem exec_readBytes_of_noopCase (hc : s.configured = true) (h : NoopCase (.readBytes av len offset count) s) :
    exec (.readBytes av len offset count) s = silentNoop s := by
  rcases exec_readBytes_cases hc with ⟨-, hexec⟩ | ⟨hproceeds, -⟩ | ⟨hproceeds, -⟩
  · exact hexec
  · exact absurd h (not_noopCase_of_readProceeds hproceeds)
  · exact absurd h (not_noopCase_of_readProceeds hproceeds)

end

/-! ### The overrun of a copy (20_memory R63) -/

section
variable {s : State} {x offset count : Word}

/-- From an index of storage, a copy that wraps more than once has a head longer than storage. -/
theorem not_fitsSplit_iff (hx : x.toNat < s.capacity.toNat) :
    ¬ FitsSplit s x count ↔ s.capacity.toNat + (s.capacity.toNat - x.toNat) < count.toNat := by
  omega

theorem copyInAndAdvance_cases (s : State) (offset count : Word) :
    (count.toNat ≤ s.capacity.toNat + (s.capacity.toNat - s.writeIndex.toNat) ∧
      ∃ u, copyInAndAdvance offset count s = succeed u 0) ∨
    (s.capacity.toNat + (s.capacity.toNat - s.writeIndex.toNat) < count.toNat ∧
      copyInAndAdvance offset count s = faultDomain .splitOverrun) := by
  rw [copyInAndAdvance]
  rcases copyIn_cases offset.toNat count.toNat s with ⟨hlt, e⟩ | ⟨first, rem, hfirst, hsum, hrem, e⟩ | ⟨hover, e⟩
  · rw [e]
    exact .inl ⟨by omega, _, rfl⟩
  · rw [e]
    exact .inl ⟨by omega, _, rfl⟩
  · rw [e]
    exact .inr ⟨hover, rfl⟩

theorem copyOutAndAdvance_cases (s : State) (offset count : Word) :
    (count.toNat ≤ s.capacity.toNat + (s.capacity.toNat - s.readIndex.toNat) ∧
      ∃ u, copyOutAndAdvance offset count s = succeed u 0) ∨
    (s.capacity.toNat + (s.capacity.toNat - s.readIndex.toNat) < count.toNat ∧
      copyOutAndAdvance offset count s = faultDomain .splitOverrun) := by
  rw [copyOutAndAdvance]
  rcases copyOut_cases offset.toNat count.toNat s with ⟨hlt, e⟩ | ⟨first, rem, hfirst, hsum, hrem, e⟩ | ⟨hover, e⟩
  · rw [e]
    exact .inl ⟨by omega, _, rfl⟩
  · rw [e]
    exact .inl ⟨by omega, _, rfl⟩
  · rw [e]
    exact .inr ⟨hover, rfl⟩

theorem copyInAndAdvance_of_not_fitsSplit (hx : s.writeIndex.toNat < s.capacity.toNat)
    (h : ¬ FitsSplit s s.writeIndex count) : copyInAndAdvance offset count s = .fault .splitOverrun := by
  have hover := (not_fitsSplit_iff hx).1 h
  rcases copyInAndAdvance_cases s offset count with ⟨hle, -⟩ | ⟨-, hfault⟩
  · exact absurd hover hle.not_gt
  · exact hfault

theorem copyOutAndAdvance_of_not_fitsSplit (hx : s.readIndex.toNat < s.capacity.toNat)
    (h : ¬ FitsSplit s s.readIndex count) : copyOutAndAdvance offset count s = .fault .splitOverrun := by
  have hover := (not_fitsSplit_iff hx).1 h
  rcases copyOutAndAdvance_cases s offset count with ⟨hle, -⟩ | ⟨-, hfault⟩
  · exact absurd hover hle.not_gt
  · exact hfault

end

/-! ### The cause of every end of a command -/

/-- The not-configured check is that of every command but the constructions. -/
theorem exec_of_unconfigured {i : Instr} {s : State} (hi : isConstruction i = false) (hc : s.configured = false) :
    exec i s = raise s .notConfigured := by
  cases i with
  | initSize | initArray => exact absurd hi.symm Bool.false_ne_true
  | _ => exact whenConfigured_false hc _

/-- Why `i` may be answered with a status in `s`. Success is given no cause here: a silent no-op may be reported as
ST_OK too. -/
def AnswerCause (i : Instr) (s : State) : Status → Prop
  | .ok => True
  | .noop => NoopCase i s
  | .errOverwrite => ∃ count, i = .skipWriteBytes count ∧ s.remainingLength < (count.toNat : Int)
  | .errConfig => ∃ n, isPow2 n = false ∧ (i = .initSize n ∨ i = .initArray true n)
  | .notConfigured => isConstruction i = false ∧ s.configured = false
  | .illegal | .faultDomain => False

/-- As an end of `i` begun in `s`, the outcome has its cause: an answer that of its status, a fault, under the
invariant, its case of R206. -/
def EndsWithCause (i : Instr) (s : State) : Outcome → Prop
  | .next t => ∃ u st v, t = State.respond u st v ∧ AnswerCause i s st
  | .fault r => Inv s → FaultCase r i s
  | .refused _ => False

section
variable {i : Instr} {s u : State}

theorem endsWithCause_succeed {v : Long} : EndsWithCause i s (succeed u v) := ⟨u, _, v, rfl, trivial⟩

theorem endsWithCause_raise {st : Status} (h : AnswerCause i s st) : EndsWithCause i s (raise u st) :=
  ⟨u, st, 0, rfl, h⟩

/-- The cause serves both reports of a silent no-op. -/
theorem endsWithCause_silentNoop (h : NoopCase i s) : EndsWithCause i s (silentNoop u) := by
  refine endsWithCause_raise ?_
  rcases noopStatus_cases with hst | hst
  · rw [hst]
    trivial
  · rw [hst]
    exact h

theorem endsWithCause_exec_of_check (hi : isConstruction i = false)
    (h : s.configured = true → EndsWithCause i s (exec i s)) : EndsWithCause i s (exec i s) := by
  cases hc : s.configured with
  | true => exact h hc
  | false =>
    rw [exec_of_unconfigured hi hc]
    exact endsWithCause_raise ⟨hi, hc⟩

/-- A command with no check but the not-configured one. -/
theorem endsWithCause_exec_of_checkedSucceed {v : Long} (hi : isConstruction i = false)
    (h : exec i s = whenConfigured s (succeed u v)) : EndsWithCause i s (exec i s) := by
  refine endsWithCause_exec_of_check hi fun hc => ?_
  rw [h, whenConfigured_true hc]
  exact endsWithCause_succeed

/-- A copy faults only by an overrun. -/
theorem endsWithCause_copyInAndAdvance {offset count : Word} (hc : s.configured = true)
    (h : ¬ FitsSplit s s.writeIndex count → FaultCase .splitOverrun i s) :
    EndsWithCause i s (copyInAndAdvance offset count s) := by
  rcases copyInAndAdvance_cases s offset count with ⟨-, u, hsucceed⟩ | ⟨hover, hfault⟩
  · rw [hsucceed]
    exact endsWithCause_succeed
  · rw [hfault]
    exact fun hinv => h ((not_fitsSplit_iff (indexOf_lt_capacity hinv hc s.writeCount)).2 hover)

/-- The copy out may begin in another state, as that of `read_bytes_new` does. -/
theorem endsWithCause_copyOutAndAdvance {offset count : Word} (hc : s.configured = true)
    (hcapacity : u.capacity = s.capacity) (hindex : u.readIndex = s.readIndex)
    (h : ¬ FitsSplit s s.readIndex count → FaultCase .splitOverrun i s) :
    EndsWithCause i s (copyOutAndAdvance offset count u) := by
  rcases copyOutAndAdvance_cases u offset count with ⟨-, t, hsucceed⟩ | ⟨hover, hfault⟩
  · rw [hsucceed]
    exact endsWithCause_succeed
  · rw [hcapacity, hindex] at hover
    rw [hfault]
    exact fun hinv => h ((not_fitsSplit_iff (indexOf_lt_capacity hinv hc s.readCount)).2 hover)

end

section
variable (s : State)

theorem endsWithCause_initSize (size : Word) : EndsWithCause (.initSize size) s (exec (.initSize size) s) := by
  cases hsize : isPow2 size with
  | true =>
    rw [exec_initSize_of_isPow2 s hsize]
    exact endsWithCause_succeed
  | false =>
    rw [exec_initSize_of_not_isPow2 s hsize]
    exact endsWithCause_raise ⟨size, hsize, .inl rfl⟩

theorem endsWithCause_initArray (av : Bool) (len : Word) :
    EndsWithCause (.initArray av len) s (exec (.initArray av len) s) := by
  cases av with
  | false => exact fun _ => ⟨len, rfl⟩
  | true =>
    cases hlen : isPow2 len with
    | true =>
      rw [exec_initArray_of_isPow2 s hlen]
      exact endsWithCause_succeed
    | false =>
      rw [exec_initArray_of_not_isPow2 s hlen]
      exact endsWithCause_raise ⟨len, hlen, .inr rfl⟩

theorem endsWithCause_write (av : Bool) (len offset count : Word) :
    EndsWithCause (.write av len offset count) s (exec (.write av len offset count) s) := by
  refine endsWithCause_exec_of_check rfl fun hc => ?_
  rcases exec_write_cases hc with ⟨hnoop, hexec⟩ | ⟨hproceeds, hover, hexec⟩ | ⟨hproceeds, hroom, hexec⟩
  · rw [hexec]
    exact endsWithCause_silentNoop hnoop
  · rw [hexec]
    exact fun _ => ⟨av, len, offset, count, rfl, hproceeds, hover⟩
  · rw [hexec]
    exact endsWithCause_copyInAndAdvance hc fun hsplit =>
      .inl ⟨av, len, offset, count, rfl, hproceeds, hroom, hsplit⟩

theorem endsWithCause_readBytes (av : Bool) (len offset count : Word) :
    EndsWithCause (.readBytes av len offset count) s (exec (.readBytes av len offset count) s) := by
  refine endsWithCause_exec_of_check rfl fun hc => ?_
  rcases exec_readBytes_cases hc with ⟨hnoop, hexec⟩ | ⟨hproceeds, hover, hexec⟩ | ⟨hproceeds, hroom, hexec⟩
  · rw [hexec]
    exact endsWithCause_silentNoop hnoop
  · rw [hexec]
    exact fun _ => ⟨av, len, offset, count, rfl, hproceeds, hover⟩
  · rw [hexec]
    exact endsWithCause_copyOutAndAdvance hc rfl rfl fun hsplit =>
      .inr (.inl ⟨av, len, offset, count, rfl, hproceeds, hroom, hsplit⟩)

theorem endsWithCause_readBytesNew (count : Word) :
    EndsWithCause (.readBytesNew count) s (exec (.readBytesNew count) s) := by
  refine endsWithCause_exec_of_check rfl fun hc => ?_
  rcases Nat.lt_or_ge s.dataLength.toNat count.toNat with hshort | hcount
  · rw [exec_readBytesNew_of_lt hc hshort]
    exact endsWithCause_silentNoop (u := s.freshArray count) hshort
  · rw [exec_readBytesNew_of_le hc hcount]
    exact endsWithCause_copyOutAndAdvance hc rfl rfl fun hsplit => .inr (.inr ⟨count, rfl, hc, hcount, hsplit⟩)

theorem endsWithCause_skipWriteBytes (count : Word) :
    EndsWithCause (.skipWriteBytes count) s (exec (.skipWriteBytes count) s) := by
  refine endsWithCause_exec_of_check rfl fun hc => ?_
  rcases lt_or_ge s.remainingLength (count.toNat : Int) with hover | hfree
  · rw [exec_skipWriteBytes_of_remainingLength_lt hc hover]
    exact endsWithCause_raise (u := s) ⟨count, rfl, hover⟩
  · rw [exec_skipWriteBytes_of_le_remainingLength hc hfree]
    exact endsWithCause_succeed

/-- The constructions, the bulk copies and `skip_write_bytes` have checks of their own; every other command succeeds
once the block is configured. -/
theorem endsWithCause_exec (i : Instr) : EndsWithCause i s (exec i s) := by
  cases i with
  | initSize size => exact endsWithCause_initSize s size
  | initArray av len => exact endsWithCause_initArray s av len
  | write av len offset count => exact endsWithCause_write s av len offset count
  | readBytes av len offset count => exact endsWithCause_readBytes s av len offset count
  | readBytesNew count => exact endsWithCause_readBytesNew s count
  | skipWriteBytes count => exact endsWithCause_skipWriteBytes s count
  | _ => exact endsWithCause_exec_of_checkedSucceed rfl rfl

end

section
variable {i : Instr} {s t : State} {r : Response} {rest : List Response} {st : Status}

/-- A command is answered with a status only for the status's cause. -/
theorem answerCause_of_exec (h : exec i s = .next t) (hres : t.responses = r :: rest) (hst : r.status = st) :
    AnswerCause i s st := by
  have hends := endsWithCause_exec s i
  rw [h] at hends
  obtain ⟨u, st', v, rfl, hcause⟩ := hends
  obtain ⟨rfl, -⟩ := List.cons.inj hres
  exact hst ▸ hcause

/-- Under the invariant a command stops only in a case of R206. -/
theorem faultCase_of_exec {f : Fault} (hinv : Inv s) (h : exec i s = .fault f) : FaultCase f i s := by
  have hends := endsWithCause_exec s i
  rw [h] at hends
  exact hends hinv

end

/-! ### Errors with one cause (60_exceptions R201, R202, R205) -/

/-- Settles O10: the not-configured check answers before the command's own body, and ST_NOT_CONFIGURED has no other
cause. -/
theorem unconfiguredCommandsAnswered : Obligations.UnconfiguredCommandsAnswered :=
  ⟨fun _ s hi hc => exec_answersError_of_raise_self s (exec_of_unconfigured hi hc),
    fun _ _ _ _ _ => answerCause_of_exec⟩

/-- Settles O21: the constructions' size check, and the one cause of ST_ERR_CONFIG. -/
theorem configurationErrorExactlyOnBadSize : Obligations.ConfigurationErrorExactlyOnBadSize :=
  ⟨fun s _ hbad => ⟨exec_answersError_of_raise_self s (exec_initSize_of_not_isPow2 s hbad),
      exec_answersError_of_raise_self s (exec_initArray_of_not_isPow2 s hbad)⟩,
    fun _ _ _ _ _ => answerCause_of_exec⟩

/-- Settles O48: the free-space check of `skip_write_bytes`, and the one cause of ST_ERR_OVERWRITE. -/
theorem overwriteErrorExactlyOnOverclaim : Obligations.OverwriteErrorExactlyOnOverclaim :=
  ⟨fun s _ hc hover => exec_answersError_of_raise_self s (exec_skipWriteBytes_of_remainingLength_lt hc hover),
    fun _ _ _ _ _ => answerCause_of_exec⟩

/-! ### Silent no-ops (60_exceptions R203) -/

/-- In its no-op case a command is a silent no-op in the state it began in, or, as `read_bytes_new`, with a new array. -/
theorem exec_of_noopCase {i : Instr} {s : State} (hc : s.configured = true) (h : NoopCase i s) :
    exec i s = silentNoop s ∨ ∃ count, i = .readBytesNew count ∧ exec i s = silentNoop (s.freshArray count) := by
  cases i with
  | write => exact .inl (exec_write_of_noopCase hc h)
  | readBytes => exact .inl (exec_readBytes_of_noopCase hc h)
  | readBytesNew count => exact .inr ⟨count, rfl, exec_readBytesNew_of_lt hc h⟩
  | _ => exact h.elim

/-- Settles O26: the answer of a silent no-op in either state, and the one cause of ST_NOOP. -/
theorem silentNoopChangesNothing : Obligations.SilentNoopChangesNothing := by
  refine ⟨fun i s hc hnoop => ?_, fun _ _ _ _ _ hnot h hres hst => hnot (answerCause_of_exec h hres hst), rfl⟩
  rcases exec_of_noopCase hc hnoop with hexec | ⟨count, rfl, hexec⟩
  · exact ⟨_, s.operand, hexec, blockKept_respond _ _ _, ⟨rfl, rfl, rfl⟩, fun _ => rfl⟩
  · exact ⟨_, (s.freshArray count).operand, hexec, blockKept_freshArray s count, ⟨rfl, rfl, rfl⟩,
      fun hop => absurd rfl hop⟩

/-! ### Domain faults (60_exceptions R206) -/

section
variable {s : State} {av : Bool} {len offset count : Word}

theorem exec_write_of_overrun (h : WriteProceeds s av len offset) (hover : len.toNat < offset.toNat + count.toNat) :
    exec (.write av len offset count) s = .fault .srcRange := by
  have ⟨hc, _⟩ := h
  rcases exec_write_cases (count := count) hc with ⟨hnoop, -⟩ | ⟨-, -, hexec⟩ | ⟨-, hroom, -⟩
  · exact absurd hnoop (not_noopCase_of_writeProceeds h)
  · exact hexec
  · exact absurd hover hroom.not_gt

theorem exec_readBytes_of_overrun (h : ReadProceeds s av len offset count)
    (hover : len.toNat < offset.toNat + count.toNat) :
    exec (.readBytes av len offset count) s = .fault .dstRange := by
  have ⟨hc, _⟩ := h
  rcases exec_readBytes_cases (count := count) hc with ⟨hnoop, -⟩ | ⟨-, -, hexec⟩ | ⟨-, hroom, -⟩
  · exact absurd hnoop (not_noopCase_of_readProceeds h)
  · exact hexec
  · exact absurd hover hroom.not_gt

end

/-- In each case of the table the command stops with the case's reason. -/
theorem exec_of_faultCase {i : Instr} {s : State} {r : Fault} (hinv : Inv s) (h : FaultCase r i s) :
    exec i s = .fault r := by
  cases r with
  | srcRange =>
    obtain ⟨av, len, offset, count, rfl, hproceeds, hover⟩ := h
    exact exec_write_of_overrun hproceeds hover
  | dstRange =>
    obtain ⟨av, len, offset, count, rfl, hproceeds, hover⟩ := h
    exact exec_readBytes_of_overrun hproceeds hover
  | splitOverrun =>
    rcases h with ⟨av, len, offset, count, rfl, hproceeds, hroom, hsplit⟩ |
      ⟨av, len, offset, count, rfl, hproceeds, hroom, hsplit⟩ | ⟨count, rfl, hc, hcount, hsplit⟩
    · have ⟨hc, hav, _⟩ := hproceeds
      subst hav
      rw [exec_write_of_proceeds hproceeds hroom]
      exact copyInAndAdvance_of_not_fitsSplit (indexOf_lt_capacity hinv hc s.writeCount) hsplit
    · have ⟨hc, hav, _⟩ := hproceeds
      subst hav
      rw [exec_readBytes_of_proceeds hproceeds hroom]
      exact copyOutAndAdvance_of_not_fitsSplit (indexOf_lt_capacity hinv hc s.readCount) hsplit
    · rw [exec_readBytesNew_of_le hc hcount]
      exact copyOutAndAdvance_of_not_fitsSplit (s := s.freshArray count) (indexOf_lt_capacity hinv hc s.readCount)
        hsplit
  | nullBacking =>
    obtain ⟨len, rfl⟩ := h
    rfl

/-- Whatever the reason, the response word is ST_FAULT_DOMAIN over VALUE 0. -/
theorem responseWord_faultResponse (r : Fault) : responseWord (faultResponse r) = 0x060000000000000000#72 := by
  show 0x06#8 ++ 0#64 = _
  decide

/-- Settles O27: the table's cases stop the command, and nothing else does. -/
theorem domainFaultsExactlyTheFour : Obligations.DomainFaultsExactlyTheFour :=
  ⟨fun _ _ _ hinv => ⟨faultCase_of_exec hinv, exec_of_faultCase hinv⟩, responseWord_faultResponse⟩

/-! ### The statuses of a command (60_exceptions R207) -/

/-- A status with a cause is one of the command's row. -/
theorem mem_mayAnswer_of_answerCause {i : Instr} {s : State} {st : Status} (h : AnswerCause i s st) :
    st ∈ mayAnswer i := by
  cases st with
  | ok => cases i with | _ => exact List.mem_cons_self
  | noop =>
    cases i with
    | write | readBytes | readBytesNew => simp [mayAnswer, instrOp]
    | _ => exact h.elim
  | errOverwrite =>
    obtain ⟨count, rfl, -⟩ := h
    simp [mayAnswer, instrOp]
  | errConfig => obtain ⟨n, -, rfl | rfl⟩ := h <;> simp [mayAnswer, instrOp]
  | notConfigured =>
    obtain ⟨hi, -⟩ := h
    cases i with
    | initSize | initArray => exact absurd hi.symm Bool.false_ne_true
    | _ => simp [mayAnswer, instrOp]
  | illegal | faultDomain => exact h.elim

/-- Settles O54: the causes, status by status, against the rows of the table. -/
theorem statusesPerCommand : Obligations.StatusesPerCommand :=
  fun _ _ _ _ _ h hres => mem_mayAnswer_of_answerCause (answerCause_of_exec h hres rfl)

end Sys2Proof.Machine

/-! PROOFS of the family 70_reset_and_hazards: the steps that take no command, idle (60_exceptions R216) and hardware
reset (R230). -/

namespace Sys2Proof.Machine

/-- With nothing presented the block holds its state. -/
theorem step_of_inputs_nil {s : State} (hin : s.inputs = []) : step s = .next s := by
  simp only [step, hin]

/-- A hardware reset at the head of the inputs is the whole step. -/
theorem step_of_hardwareReset {s : State} {rest : List Input} (hin : s.inputs = .hardwareReset :: rest) :
    step s = .next (s.hardwareReset rest) := by
  simp only [step, hin]

/-- Settles O7: the step's two branches that take no command, with the fields the reset leaves. -/
theorem stepTakesHostEvents : Obligations.StepTakesHostEvents :=
  ⟨fun _ => step_of_inputs_nil, fun s rest hin =>
    ⟨s.hardwareReset rest, step_of_hardwareReset hin, s.hardwareReset_configured rest, s.hardwareReset_storage rest,
      s.hardwareReset_inputs rest, s.hardwareReset_operand rest, s.hardwareReset_responses rest⟩⟩

end Sys2Proof.Machine
